-- ==== Sys2Proof/Word.lean ====
section
/-! DEFINITION. The two unsigned word types of the core (00_scope.md R5, R7). -/

namespace Sys2Proof

/-- Byte: a register, a memory cell, an opcode or operand byte. -/
abbrev Byte := BitVec 8

/-- Word: an address, a register pair, `pc` or `sp`. -/
abbrev Word := BitVec 16

end Sys2Proof
end

