-- ==== Sys2Proof/Syntax.lean ====
section
/-! DEFINITION. The instructions of the core, one constructor per mnemonic of spec/opcode_table.json (30_encoding.md R66,
R67), and the names of their operands (R65). -/

namespace Sys2Proof

/-- The eight Byte registers (10_state.md R10). -/
inductive Reg where
  | a | b | c | d | e | h | l | f
deriving DecidableEq, Repr

/-- The seven registers an instruction field can name (10_state.md R11); F has no code and is no operand (30_encoding.md
R65). -/
inductive OpReg where
  | b | c | d | e | h | l | a
deriving DecidableEq, Repr

/-- The four pairs, first letter high (10_state.md R13): the operands of `PUSH` and `POP`. -/
inductive Pair where
  | bc | de | hl | af
deriving DecidableEq, Repr

/-- The pairs that `ADD HL,pp` adds (10_state.md R14, field `pp`). -/
inductive AddPair where
  | bc | de | hl
deriving DecidableEq, Repr

/-- The pairs of the one-bit field `p`: the loads through BC or DE (10_state.md R14). -/
inductive IndPair where
  | bc | de
deriving DecidableEq, Repr

/-- One constructor per mnemonic of the opcode table. The 145 rows `(unimplemented)` share one mnemonic and are one
constructor that carries the byte. -/
inductive Instr where
  -- No-op (40_dispatch.md R81).
  /-- `NOP`, opcode 0x00. -/
  | nop
  -- `LD r,r'` (41_loads.md R90).
  /-- `LD B,B`, opcode 0x40. -/
  | ldBB
  /-- `LD B,C`, opcode 0x41. -/
  | ldBC
  /-- `LD B,D`, opcode 0x42. -/
  | ldBD
  /-- `LD B,E`, opcode 0x43. -/
  | ldBE
  /-- `LD B,H`, opcode 0x44. -/
  | ldBH
  /-- `LD B,L`, opcode 0x45. -/
  | ldBL
  /-- `LD B,A`, opcode 0x47. -/
  | ldBA
  /-- `LD C,B`, opcode 0x48. -/
  | ldCB
  /-- `LD C,C`, opcode 0x49. -/
  | ldCC
  /-- `LD C,D`, opcode 0x4A. -/
  | ldCD
  /-- `LD C,E`, opcode 0x4B. -/
  | ldCE
  /-- `LD C,H`, opcode 0x4C. -/
  | ldCH
  /-- `LD C,L`, opcode 0x4D. -/
  | ldCL
  /-- `LD C,A`, opcode 0x4F. -/
  | ldCA
  /-- `LD D,B`, opcode 0x50. -/
  | ldDB
  /-- `LD D,C`, opcode 0x51. -/
  | ldDC
  /-- `LD D,D`, opcode 0x52. -/
  | ldDD
  /-- `LD D,E`, opcode 0x53. -/
  | ldDE
  /-- `LD D,H`, opcode 0x54. -/
  | ldDH
  /-- `LD D,L`, opcode 0x55. -/
  | ldDL
  /-- `LD D,A`, opcode 0x57. -/
  | ldDA
  /-- `LD E,B`, opcode 0x58. -/
  | ldEB
  /-- `LD E,C`, opcode 0x59. -/
  | ldEC
  /-- `LD E,D`, opcode 0x5A. -/
  | ldED
  /-- `LD E,E`, opcode 0x5B. -/
  | ldEE
  /-- `LD E,H`, opcode 0x5C. -/
  | ldEH
  /-- `LD E,L`, opcode 0x5D. -/
  | ldEL
  /-- `LD E,A`, opcode 0x5F. -/
  | ldEA
  /-- `LD H,B`, opcode 0x60. -/
  | ldHB
  /-- `LD H,C`, opcode 0x61. -/
  | ldHC
  /-- `LD H,D`, opcode 0x62. -/
  | ldHD
  /-- `LD H,E`, opcode 0x63. -/
  | ldHE
  /-- `LD H,H`, opcode 0x64. -/
  | ldHH
  /-- `LD H,L`, opcode 0x65. -/
  | ldHL
  /-- `LD H,A`, opcode 0x67. -/
  | ldHA
  /-- `LD L,B`, opcode 0x68. -/
  | ldLB
  /-- `LD L,C`, opcode 0x69. -/
  | ldLC
  /-- `LD L,D`, opcode 0x6A. -/
  | ldLD
  /-- `LD L,E`, opcode 0x6B. -/
  | ldLE
  /-- `LD L,H`, opcode 0x6C. -/
  | ldLH
  /-- `LD L,L`, opcode 0x6D. -/
  | ldLL
  /-- `LD L,A`, opcode 0x6F. -/
  | ldLA
  /-- `LD A,B`, opcode 0x78. -/
  | ldAB
  /-- `LD A,C`, opcode 0x79. -/
  | ldAC
  /-- `LD A,D`, opcode 0x7A. -/
  | ldAD
  /-- `LD A,E`, opcode 0x7B. -/
  | ldAE
  /-- `LD A,H`, opcode 0x7C. -/
  | ldAH
  /-- `LD A,L`, opcode 0x7D. -/
  | ldAL
  /-- `LD A,A`, opcode 0x7F. -/
  | ldAA
  -- `LD r,n` (R91).
  /-- `LD B,n`, opcode 0x06. -/
  | ldBImm (n : Byte)
  /-- `LD C,n`, opcode 0x0E. -/
  | ldCImm (n : Byte)
  /-- `LD D,n`, opcode 0x16. -/
  | ldDImm (n : Byte)
  /-- `LD E,n`, opcode 0x1E. -/
  | ldEImm (n : Byte)
  /-- `LD H,n`, opcode 0x26. -/
  | ldHImm (n : Byte)
  /-- `LD L,n`, opcode 0x2E. -/
  | ldLImm (n : Byte)
  /-- `LD A,n`, opcode 0x3E. -/
  | ldAImm (n : Byte)
  -- `LD r,(HL)` (R92).
  /-- `LD B,(HL)`, opcode 0x46. -/
  | ldBMemHL
  /-- `LD C,(HL)`, opcode 0x4E. -/
  | ldCMemHL
  /-- `LD D,(HL)`, opcode 0x56. -/
  | ldDMemHL
  /-- `LD E,(HL)`, opcode 0x5E. -/
  | ldEMemHL
  /-- `LD H,(HL)`, opcode 0x66. -/
  | ldHMemHL
  /-- `LD L,(HL)`, opcode 0x6E. -/
  | ldLMemHL
  /-- `LD A,(HL)`, opcode 0x7E. -/
  | ldAMemHL
  -- `LD (HL),r` (R93).
  /-- `LD (HL),B`, opcode 0x70. -/
  | ldMemHLB
  /-- `LD (HL),C`, opcode 0x71. -/
  | ldMemHLC
  /-- `LD (HL),D`, opcode 0x72. -/
  | ldMemHLD
  /-- `LD (HL),E`, opcode 0x73. -/
  | ldMemHLE
  /-- `LD (HL),H`, opcode 0x74. -/
  | ldMemHLH
  /-- `LD (HL),L`, opcode 0x75. -/
  | ldMemHLL
  /-- `LD (HL),A`, opcode 0x77. -/
  | ldMemHLA
  -- `LD (HL),n` (R94).
  /-- `LD (HL),n`, opcode 0x36. -/
  | ldMemHLImm (n : Byte)
  -- `LD A,(BC)` (R95).
  /-- `LD A,(BC)`, opcode 0x0A. -/
  | ldAMemBC
  -- `LD A,(DE)` (R96).
  /-- `LD A,(DE)`, opcode 0x1A. -/
  | ldAMemDE
  -- `LD (BC),A` (R97).
  /-- `LD (BC),A`, opcode 0x02. -/
  | ldMemBCA
  -- `LD (DE),A` (R98).
  /-- `LD (DE),A`, opcode 0x12. -/
  | ldMemDEA
  -- `INC r` (42_incdec8.md R100).
  /-- `INC B`, opcode 0x04. -/
  | incB
  /-- `INC C`, opcode 0x0C. -/
  | incC
  /-- `INC D`, opcode 0x14. -/
  | incD
  /-- `INC E`, opcode 0x1C. -/
  | incE
  /-- `INC H`, opcode 0x24. -/
  | incH
  /-- `INC L`, opcode 0x2C. -/
  | incL
  /-- `INC A`, opcode 0x3C. -/
  | incA
  -- `DEC r` (R101).
  /-- `DEC B`, opcode 0x05. -/
  | decB
  /-- `DEC C`, opcode 0x0D. -/
  | decC
  /-- `DEC D`, opcode 0x15. -/
  | decD
  /-- `DEC E`, opcode 0x1D. -/
  | decE
  /-- `DEC H`, opcode 0x25. -/
  | decH
  /-- `DEC L`, opcode 0x2D. -/
  | decL
  /-- `DEC A`, opcode 0x3D. -/
  | decA
  -- `ADD HL,pp` (43_add16.md R105).
  /-- `ADD HL,BC`, opcode 0x09. -/
  | addHLBC
  /-- `ADD HL,DE`, opcode 0x19. -/
  | addHLDE
  -- `ADD HL,HL` (R106).
  /-- `ADD HL,HL`, opcode 0x29. -/
  | addHLHL
  -- `JP nn` (44_jumps.md R110); `nn` is the assembled target.
  /-- `JP nn`, opcode 0xC3. -/
  | jp (nn : Word)
  -- `JR e` (R111); `e` is the operand byte as stored, read as two's complement by the meaning.
  /-- `JR e`, opcode 0x18. -/
  | jr (e : Byte)
  -- `PUSH qq` (45_stack.md R115).
  /-- `PUSH BC`, opcode 0xC5. -/
  | pushBC
  /-- `PUSH DE`, opcode 0xD5. -/
  | pushDE
  /-- `PUSH HL`, opcode 0xE5. -/
  | pushHL
  /-- `PUSH AF`, opcode 0xF5. -/
  | pushAF
  -- `POP qq` (R116).
  /-- `POP BC`, opcode 0xC1. -/
  | popBC
  /-- `POP DE`, opcode 0xD1. -/
  | popDE
  /-- `POP HL`, opcode 0xE1. -/
  | popHL
  /-- `POP AF`, opcode 0xF1. -/
  | popAF
  -- `RST t` (46_restart.md R120).
  /-- `RST 0x00`, opcode 0xC7. -/
  | rst00
  /-- `RST 0x08`, opcode 0xCF. -/
  | rst08
  /-- `RST 0x10`, opcode 0xD7. -/
  | rst10
  /-- `RST 0x18`, opcode 0xDF. -/
  | rst18
  /-- `RST 0x20`, opcode 0xE7. -/
  | rst20
  /-- `RST 0x28`, opcode 0xEF. -/
  | rst28
  /-- `RST 0x30`, opcode 0xF7. -/
  | rst30
  /-- `RST 0x38`, opcode 0xFF. -/
  | rst38
  -- The 145 bytes with no decode-table entry (30_encoding.md R68, 60_exceptions.md R131).
  /-- An unimplemented opcode byte `op`. -/
  | unimplemented (op : Byte)
deriving DecidableEq, Repr

end Sys2Proof
end

