-- ==== Sys2Proof/WellFormed.lean ====
section
/-! DEFINITION. Which bytes are implemented (30_encoding.md R66) and which instruction terms are well formed. -/

namespace Sys2Proof

/-- The register codes of 10_state.md R11: every 3-bit code but 6, in the order B, C, D, E, H, L, A. -/
def registerCodes : List Byte := [0, 1, 2, 3, 4, 5, 7]

/-- The 111 implemented opcode bytes, row by row of the decode table of 30_encoding.md R66. -/
def implementedBytes : List Byte :=
  [0x00] ++
  (registerCodes.flatMap fun ddd => registerCodes.map fun sss => 0x40 + 8 * ddd + sss) ++
  [0x06, 0x0E, 0x16, 0x1E, 0x26, 0x2E, 0x3E] ++
  [0x46, 0x4E, 0x56, 0x5E, 0x66, 0x6E, 0x7E] ++
  [0x70, 0x71, 0x72, 0x73, 0x74, 0x75, 0x77] ++
  [0x36] ++ [0x0A] ++ [0x1A] ++ [0x02] ++ [0x12] ++
  [0x04, 0x0C, 0x14, 0x1C, 0x24, 0x2C, 0x3C] ++
  [0x05, 0x0D, 0x15, 0x1D, 0x25, 0x2D, 0x3D] ++
  [0x09, 0x19, 0x29] ++
  [0xC3] ++ [0x18] ++
  [0xC5, 0xD5, 0xE5, 0xF5] ++
  [0xC1, 0xD1, 0xE1, 0xF1] ++
  [0xC7, 0xCF, 0xD7, 0xDF, 0xE7, 0xEF, 0xF7, 0xFF]

/-- Whether a byte has a decode-table entry (00_scope.md, glossary: implemented opcode). -/
def implemented (op : Byte) : Bool := implementedBytes.contains op

/-- Every term is well formed but for an `unimplemented` that carries an implemented byte: an operand byte or word may
have any value (30_encoding.md R61). -/
def Instr.wellFormed : Instr → Bool
  | .unimplemented op => !implemented op
  | _ => true

end Sys2Proof
end

