-- ==== Sys2Proof/Decode.lean ====
section
/-! DEFINITION. The decoder and the encoder, from the opcode map of 30_encoding.md (R60 to R68), and the byte order of a
16-bit operand (R64). -/

namespace Sys2Proof

/-- The word with high byte `hi` and low byte `lo`: `hi << 8 | lo` (10_state.md R13, 20_memory.md R45). -/
def wordOf (hi lo : Byte) : Word := (hi.zeroExtend 16 <<< 8) ||| lo.zeroExtend 16

/-- `w >> 8` as a byte. -/
def hiByte (w : Word) : Byte := (w >>> 8).truncate 8

/-- `w & 0xFF` as a byte. -/
def loByte (w : Word) : Byte := w.truncate 8

/-- An entry of the decode table (40_dispatch.md R82): how many operand bytes follow the opcode, and the instruction they
complete. -/
inductive Entry where
  /-- Operand length 0. -/
  | bare (i : Instr)
  /-- Operand length 1: `n` or `e`. -/
  | imm8 (make : Byte → Instr)
  /-- Operand length 2: `nn`. -/
  | imm16 (make : Word → Instr)

/-- Operand length of an entry, 0, 1 or 2 (30_encoding.md R60, R61). -/
def Entry.operandLength : Entry → Nat
  | .bare _ => 0
  | .imm8 _ => 1
  | .imm16 _ => 2

/-- The decode table as the map of 30_encoding.md R67; a byte with no entry is R68's unimplemented opcode. -/
def decodeEntry (op : Byte) : Entry :=
  match op with
  | 0x00#8 => .bare .nop
  | 0x02#8 => .bare .ldMemBCA
  | 0x04#8 => .bare .incB
  | 0x05#8 => .bare .decB
  | 0x06#8 => .imm8 .ldBImm
  | 0x09#8 => .bare .addHLBC
  | 0x0A#8 => .bare .ldAMemBC
  | 0x0C#8 => .bare .incC
  | 0x0D#8 => .bare .decC
  | 0x0E#8 => .imm8 .ldCImm
  | 0x12#8 => .bare .ldMemDEA
  | 0x14#8 => .bare .incD
  | 0x15#8 => .bare .decD
  | 0x16#8 => .imm8 .ldDImm
  | 0x18#8 => .imm8 .jr
  | 0x19#8 => .bare .addHLDE
  | 0x1A#8 => .bare .ldAMemDE
  | 0x1C#8 => .bare .incE
  | 0x1D#8 => .bare .decE
  | 0x1E#8 => .imm8 .ldEImm
  | 0x24#8 => .bare .incH
  | 0x25#8 => .bare .decH
  | 0x26#8 => .imm8 .ldHImm
  | 0x29#8 => .bare .addHLHL
  | 0x2C#8 => .bare .incL
  | 0x2D#8 => .bare .decL
  | 0x2E#8 => .imm8 .ldLImm
  | 0x36#8 => .imm8 .ldMemHLImm
  | 0x3C#8 => .bare .incA
  | 0x3D#8 => .bare .decA
  | 0x3E#8 => .imm8 .ldAImm
  | 0x40#8 => .bare .ldBB
  | 0x41#8 => .bare .ldBC
  | 0x42#8 => .bare .ldBD
  | 0x43#8 => .bare .ldBE
  | 0x44#8 => .bare .ldBH
  | 0x45#8 => .bare .ldBL
  | 0x46#8 => .bare .ldBMemHL
  | 0x47#8 => .bare .ldBA
  | 0x48#8 => .bare .ldCB
  | 0x49#8 => .bare .ldCC
  | 0x4A#8 => .bare .ldCD
  | 0x4B#8 => .bare .ldCE
  | 0x4C#8 => .bare .ldCH
  | 0x4D#8 => .bare .ldCL
  | 0x4E#8 => .bare .ldCMemHL
  | 0x4F#8 => .bare .ldCA
  | 0x50#8 => .bare .ldDB
  | 0x51#8 => .bare .ldDC
  | 0x52#8 => .bare .ldDD
  | 0x53#8 => .bare .ldDE
  | 0x54#8 => .bare .ldDH
  | 0x55#8 => .bare .ldDL
  | 0x56#8 => .bare .ldDMemHL
  | 0x57#8 => .bare .ldDA
  | 0x58#8 => .bare .ldEB
  | 0x59#8 => .bare .ldEC
  | 0x5A#8 => .bare .ldED
  | 0x5B#8 => .bare .ldEE
  | 0x5C#8 => .bare .ldEH
  | 0x5D#8 => .bare .ldEL
  | 0x5E#8 => .bare .ldEMemHL
  | 0x5F#8 => .bare .ldEA
  | 0x60#8 => .bare .ldHB
  | 0x61#8 => .bare .ldHC
  | 0x62#8 => .bare .ldHD
  | 0x63#8 => .bare .ldHE
  | 0x64#8 => .bare .ldHH
  | 0x65#8 => .bare .ldHL
  | 0x66#8 => .bare .ldHMemHL
  | 0x67#8 => .bare .ldHA
  | 0x68#8 => .bare .ldLB
  | 0x69#8 => .bare .ldLC
  | 0x6A#8 => .bare .ldLD
  | 0x6B#8 => .bare .ldLE
  | 0x6C#8 => .bare .ldLH
  | 0x6D#8 => .bare .ldLL
  | 0x6E#8 => .bare .ldLMemHL
  | 0x6F#8 => .bare .ldLA
  | 0x70#8 => .bare .ldMemHLB
  | 0x71#8 => .bare .ldMemHLC
  | 0x72#8 => .bare .ldMemHLD
  | 0x73#8 => .bare .ldMemHLE
  | 0x74#8 => .bare .ldMemHLH
  | 0x75#8 => .bare .ldMemHLL
  | 0x77#8 => .bare .ldMemHLA
  | 0x78#8 => .bare .ldAB
  | 0x79#8 => .bare .ldAC
  | 0x7A#8 => .bare .ldAD
  | 0x7B#8 => .bare .ldAE
  | 0x7C#8 => .bare .ldAH
  | 0x7D#8 => .bare .ldAL
  | 0x7E#8 => .bare .ldAMemHL
  | 0x7F#8 => .bare .ldAA
  | 0xC1#8 => .bare .popBC
  | 0xC3#8 => .imm16 .jp
  | 0xC5#8 => .bare .pushBC
  | 0xC7#8 => .bare .rst00
  | 0xCF#8 => .bare .rst08
  | 0xD1#8 => .bare .popDE
  | 0xD5#8 => .bare .pushDE
  | 0xD7#8 => .bare .rst10
  | 0xDF#8 => .bare .rst18
  | 0xE1#8 => .bare .popHL
  | 0xE5#8 => .bare .pushHL
  | 0xE7#8 => .bare .rst20
  | 0xEF#8 => .bare .rst28
  | 0xF1#8 => .bare .popAF
  | 0xF5#8 => .bare .pushAF
  | 0xF7#8 => .bare .rst30
  | 0xFF#8 => .bare .rst38
  | _ => .bare (.unimplemented op)

/-- Why a byte list holds no instruction: it ends too early. No byte value is refused (30_encoding.md R61, R68). -/
inductive DecodeError where
  /-- There is no opcode byte. -/
  | noOpcode
  /-- The opcode `op` has operand bytes and the list ends before them. -/
  | missingOperand (op : Byte)
deriving DecidableEq, Repr

/-- Complete a table entry from the bytes after the opcode; a 16-bit operand has its low byte first (30_encoding.md
R64). -/
def completeEntry (op : Byte) : Entry → List Byte → Except DecodeError (Instr × List Byte)
  | .bare i, rest => .ok (i, rest)
  | .imm8 make, n :: rest => .ok (make n, rest)
  | .imm16 make, lo :: hi :: rest => .ok (make (wordOf hi lo), rest)
  | .imm8 _, [] => .error (.missingOperand op)
  | .imm16 _, _ => .error (.missingOperand op)

/-- The instruction at the head of a byte list, and the bytes after it (30_encoding.md R60). -/
def decode : List Byte → Except DecodeError (Instr × List Byte)
  | [] => .error .noOpcode
  | op :: rest => completeEntry op (decodeEntry op) rest

/-- The bytes of an instruction, opcode first, from the formats of 30_encoding.md R63 and the table of R66. -/
def encode : Instr → List Byte
  | .nop => [0x00#8]
  | .ldBB => [0x40#8]
  | .ldBC => [0x41#8]
  | .ldBD => [0x42#8]
  | .ldBE => [0x43#8]
  | .ldBH => [0x44#8]
  | .ldBL => [0x45#8]
  | .ldBA => [0x47#8]
  | .ldCB => [0x48#8]
  | .ldCC => [0x49#8]
  | .ldCD => [0x4A#8]
  | .ldCE => [0x4B#8]
  | .ldCH => [0x4C#8]
  | .ldCL => [0x4D#8]
  | .ldCA => [0x4F#8]
  | .ldDB => [0x50#8]
  | .ldDC => [0x51#8]
  | .ldDD => [0x52#8]
  | .ldDE => [0x53#8]
  | .ldDH => [0x54#8]
  | .ldDL => [0x55#8]
  | .ldDA => [0x57#8]
  | .ldEB => [0x58#8]
  | .ldEC => [0x59#8]
  | .ldED => [0x5A#8]
  | .ldEE => [0x5B#8]
  | .ldEH => [0x5C#8]
  | .ldEL => [0x5D#8]
  | .ldEA => [0x5F#8]
  | .ldHB => [0x60#8]
  | .ldHC => [0x61#8]
  | .ldHD => [0x62#8]
  | .ldHE => [0x63#8]
  | .ldHH => [0x64#8]
  | .ldHL => [0x65#8]
  | .ldHA => [0x67#8]
  | .ldLB => [0x68#8]
  | .ldLC => [0x69#8]
  | .ldLD => [0x6A#8]
  | .ldLE => [0x6B#8]
  | .ldLH => [0x6C#8]
  | .ldLL => [0x6D#8]
  | .ldLA => [0x6F#8]
  | .ldAB => [0x78#8]
  | .ldAC => [0x79#8]
  | .ldAD => [0x7A#8]
  | .ldAE => [0x7B#8]
  | .ldAH => [0x7C#8]
  | .ldAL => [0x7D#8]
  | .ldAA => [0x7F#8]
  | .ldBImm n => [0x06#8, n]
  | .ldCImm n => [0x0E#8, n]
  | .ldDImm n => [0x16#8, n]
  | .ldEImm n => [0x1E#8, n]
  | .ldHImm n => [0x26#8, n]
  | .ldLImm n => [0x2E#8, n]
  | .ldAImm n => [0x3E#8, n]
  | .ldBMemHL => [0x46#8]
  | .ldCMemHL => [0x4E#8]
  | .ldDMemHL => [0x56#8]
  | .ldEMemHL => [0x5E#8]
  | .ldHMemHL => [0x66#8]
  | .ldLMemHL => [0x6E#8]
  | .ldAMemHL => [0x7E#8]
  | .ldMemHLB => [0x70#8]
  | .ldMemHLC => [0x71#8]
  | .ldMemHLD => [0x72#8]
  | .ldMemHLE => [0x73#8]
  | .ldMemHLH => [0x74#8]
  | .ldMemHLL => [0x75#8]
  | .ldMemHLA => [0x77#8]
  | .ldMemHLImm n => [0x36#8, n]
  | .ldAMemBC => [0x0A#8]
  | .ldAMemDE => [0x1A#8]
  | .ldMemBCA => [0x02#8]
  | .ldMemDEA => [0x12#8]
  | .incB => [0x04#8]
  | .incC => [0x0C#8]
  | .incD => [0x14#8]
  | .incE => [0x1C#8]
  | .incH => [0x24#8]
  | .incL => [0x2C#8]
  | .incA => [0x3C#8]
  | .decB => [0x05#8]
  | .decC => [0x0D#8]
  | .decD => [0x15#8]
  | .decE => [0x1D#8]
  | .decH => [0x25#8]
  | .decL => [0x2D#8]
  | .decA => [0x3D#8]
  | .addHLBC => [0x09#8]
  | .addHLDE => [0x19#8]
  | .addHLHL => [0x29#8]
  | .jp nn => [0xC3#8, loByte nn, hiByte nn]
  | .jr e => [0x18#8, e]
  | .pushBC => [0xC5#8]
  | .pushDE => [0xD5#8]
  | .pushHL => [0xE5#8]
  | .pushAF => [0xF5#8]
  | .popBC => [0xC1#8]
  | .popDE => [0xD1#8]
  | .popHL => [0xE1#8]
  | .popAF => [0xF1#8]
  | .rst00 => [0xC7#8]
  | .rst08 => [0xCF#8]
  | .rst10 => [0xD7#8]
  | .rst18 => [0xDF#8]
  | .rst20 => [0xE7#8]
  | .rst28 => [0xEF#8]
  | .rst30 => [0xF7#8]
  | .rst38 => [0xFF#8]
  | .unimplemented op => [op]

/-- The opcode byte of an instruction, byte 0 of its encoding. -/
def Instr.opcode (i : Instr) : Byte := (encode i).headD 0

/-- The bytes of an opcode-table word: byte k of the instruction is bits 8k+7..8k of `w`, the bits from `nbits` up being
zero (spec/98_reader.md: bit 0 is the least significant bit of the first byte). -/
def tableBytes (nbits w : Nat) : List Byte :=
  let v := w % 2 ^ nbits
  [BitVec.ofNat 8 v, BitVec.ofNat 8 (v / 2 ^ 8), BitVec.ofNat 8 (v / 2 ^ 16)]

/-- The instruction the decoder reads from an opcode-table word. -/
def decodeTableWord (nbits w : Nat) : Option Instr :=
  match decode (tableBytes nbits w) with
  | .ok (i, _) => some i
  | .error _ => none

/-! The operand codes of 10_state.md R11 and R14, and each family's instruction with given operands (30_encoding.md R65),
in which statements about a family are written. -/

/-- The 3-bit code of a register operand (10_state.md R11). -/
def OpReg.code : OpReg → BitVec 3
  | .b => 0 | .c => 1 | .d => 2 | .e => 3 | .h => 4 | .l => 5 | .a => 7

/-- The 2-bit code `pp` (10_state.md R14). -/
def AddPair.code : AddPair → BitVec 2
  | .bc => 0 | .de => 1 | .hl => 2

/-- The 2-bit code `qq` (10_state.md R14). -/
def Pair.code : Pair → BitVec 2
  | .bc => 0 | .de => 1 | .hl => 2 | .af => 3

/-- The 1-bit code `p` (10_state.md R14). -/
def IndPair.code : IndPair → BitVec 1
  | .bc => 0 | .de => 1

/-- `LD r,r'` with destination `r` and source `r'` (41_loads.md R90). -/
def Instr.ldRegReg : OpReg → OpReg → Instr
  | .b, .b => .ldBB | .b, .c => .ldBC | .b, .d => .ldBD | .b, .e => .ldBE | .b, .h => .ldBH | .b, .l => .ldBL
  | .b, .a => .ldBA | .c, .b => .ldCB | .c, .c => .ldCC | .c, .d => .ldCD | .c, .e => .ldCE | .c, .h => .ldCH
  | .c, .l => .ldCL | .c, .a => .ldCA | .d, .b => .ldDB | .d, .c => .ldDC | .d, .d => .ldDD | .d, .e => .ldDE
  | .d, .h => .ldDH | .d, .l => .ldDL | .d, .a => .ldDA | .e, .b => .ldEB | .e, .c => .ldEC | .e, .d => .ldED
  | .e, .e => .ldEE | .e, .h => .ldEH | .e, .l => .ldEL | .e, .a => .ldEA | .h, .b => .ldHB | .h, .c => .ldHC
  | .h, .d => .ldHD | .h, .e => .ldHE | .h, .h => .ldHH | .h, .l => .ldHL | .h, .a => .ldHA | .l, .b => .ldLB
  | .l, .c => .ldLC | .l, .d => .ldLD | .l, .e => .ldLE | .l, .h => .ldLH | .l, .l => .ldLL | .l, .a => .ldLA
  | .a, .b => .ldAB | .a, .c => .ldAC | .a, .d => .ldAD | .a, .e => .ldAE | .a, .h => .ldAH | .a, .l => .ldAL
  | .a, .a => .ldAA

/-- `LD r,n` (R91). -/
def Instr.ldRegImm : OpReg → Byte → Instr
  | .b, n => .ldBImm n | .c, n => .ldCImm n | .d, n => .ldDImm n | .e, n => .ldEImm n | .h, n => .ldHImm n
  | .l, n => .ldLImm n | .a, n => .ldAImm n

/-- `LD r,(HL)` (R92). -/
def Instr.ldRegMem : OpReg → Instr
  | .b => .ldBMemHL | .c => .ldCMemHL | .d => .ldDMemHL | .e => .ldEMemHL | .h => .ldHMemHL | .l => .ldLMemHL
  | .a => .ldAMemHL

/-- `LD (HL),r` (R93). -/
def Instr.ldMemReg : OpReg → Instr
  | .b => .ldMemHLB | .c => .ldMemHLC | .d => .ldMemHLD | .e => .ldMemHLE | .h => .ldMemHLH | .l => .ldMemHLL
  | .a => .ldMemHLA

/-- `LD A,(BC)` and `LD A,(DE)` (R95, R96). -/
def Instr.ldAInd : IndPair → Instr
  | .bc => .ldAMemBC | .de => .ldAMemDE

/-- `LD (BC),A` and `LD (DE),A` (R97, R98). -/
def Instr.ldIndA : IndPair → Instr
  | .bc => .ldMemBCA | .de => .ldMemDEA

/-- `INC r` (42_incdec8.md R100). -/
def Instr.inc : OpReg → Instr
  | .b => .incB | .c => .incC | .d => .incD | .e => .incE | .h => .incH | .l => .incL | .a => .incA

/-- `DEC r` (R101). -/
def Instr.dec : OpReg → Instr
  | .b => .decB | .c => .decC | .d => .decD | .e => .decE | .h => .decH | .l => .decL | .a => .decA

/-- `ADD HL,pp` (43_add16.md R105). -/
def Instr.addHL : AddPair → Instr
  | .bc => .addHLBC | .de => .addHLDE | .hl => .addHLHL

/-- `PUSH qq` (45_stack.md R115). -/
def Instr.push : Pair → Instr
  | .bc => .pushBC | .de => .pushDE | .hl => .pushHL | .af => .pushAF

/-- `POP qq` (R116). -/
def Instr.pop : Pair → Instr
  | .bc => .popBC | .de => .popDE | .hl => .popHL | .af => .popAF

/-- `RST t` with vector index `ttt` (46_restart.md R120). -/
def Instr.rst (ttt : Fin 8) : Instr :=
  match ttt with
  | 0 => .rst00
  | 1 => .rst08
  | 2 => .rst10
  | 3 => .rst18
  | 4 => .rst20
  | 5 => .rst28
  | 6 => .rst30
  | 7 => .rst38

end Sys2Proof
end

