-- ==== Sys2Proof/Config.lean ====
section
/-! DEFINITION. The parameters of a launch (00_scope.md R6): the cycle costs, of which the spec fixes one, and the values
that registers take at reset. The third parameter, the program image, is an argument of `Machine.launch`. -/

namespace Sys2Proof

/-- FREE VALUE (log 3): the cost of opcode `op`, less one, for every opcode but `JP nn`. It has no body: whatever is proved
holds for every choice of costs in 1..255 (70_reset_and_hazards.md R160, 92_eei_decisions.md D9). -/
opaque Config.freeCost : Byte → Fin 255

/-- The parameter `COST` (00_scope.md R6): constrained by `COST[0xC3] = 12` and `1 <= COST[op] <= 255` and by nothing
else. -/
def Config.cost (op : Byte) : Byte :=
  if op = 0xC3 then 12 else BitVec.ofNat 8 ((Config.freeCost op).val + 1)

/-- The rows of the reference instance `COST_REF` (70_reset_and_hazards.md R160): opcode bytes and their cost. The machine
does not use it; it is one possible `COST`. -/
def Config.costRefRows : List (List Byte × Byte) :=
  [([0x00], 4),
   (registerCodes.flatMap fun ddd => registerCodes.map fun sss => 0x40 + 8 * ddd + sss, 4),
   ([0x06, 0x0E, 0x16, 0x1E, 0x26, 0x2E, 0x3E], 8),
   ([0x46, 0x4E, 0x56, 0x5E, 0x66, 0x6E, 0x7E], 8),
   ([0x70, 0x71, 0x72, 0x73, 0x74, 0x75, 0x77], 8),
   ([0x36], 12),
   ([0x0A, 0x1A, 0x02, 0x12], 8),
   ([0x04, 0x05, 0x0C, 0x0D, 0x14, 0x15, 0x1C, 0x1D, 0x24, 0x25, 0x2C, 0x2D, 0x3C, 0x3D], 4),
   ([0x09, 0x19, 0x29], 8),
   ([0xC3], 12),
   ([0x18], 8),
   ([0xC5, 0xD5, 0xE5, 0xF5], 16),
   ([0xC1, 0xD1, 0xE1, 0xF1], 12),
   ([0xC7, 0xCF, 0xD7, 0xDF, 0xE7, 0xEF, 0xF7, 0xFF], 32)]

/-- `COST_REF[op]`, or none for a byte with no decode-table entry. -/
def Config.costRef (op : Byte) : Option Byte :=
  (Config.costRefRows.find? fun row => row.1.contains op).map Prod.snd

/-- The parameter `RESET`: the register values a reset loads (00_scope.md R6, 10_state.md R30). -/
structure Config.ResetValues where
  a : Byte
  b : Byte
  c : Byte
  d : Byte
  e : Byte
  h : Byte
  l : Byte
  f : Byte
  pc : Word
  sp : Word
deriving DecidableEq, Repr

/-- The reference instance `RESET_ZERO`: every field 0 (10_state.md R30). DESIGN CHOICE, unsafe: `State.reset` takes this
instance (log 1). -/
def Config.resetZero : Config.ResetValues :=
  { a := 0, b := 0, c := 0, d := 0, e := 0, h := 0, l := 0, f := 0, pc := 0, sp := 0 }

end Sys2Proof
end

