-- ==== Sys2Proof/Machine/State.lean ====
section
/-! DEFINITION. The whole state of the core (10_state.md, the tuple at its head and R28), the reasons a step can stop, and
the state after reset. -/

namespace Sys2Proof.Machine

/-- `status`: `Running | Faulted` (10_state.md R26). -/
inductive Status where
  | running
  | faulted
deriving DecidableEq, Repr

/-- The four flags, bits of register F (10_state.md R16). -/
inductive Flag where
  /-- Zero. -/
  | z
  /-- Subtract. -/
  | n
  /-- HalfCarry. -/
  | hf
  /-- Carry. -/
  | cf
deriving DecidableEq, Repr

/-- The memory image: the cells that differ from what an unlisted address reads as (10_state.md R27). -/
abbrev Memory := List Host.Cell

/-- What a cell that nothing has written reads as: reset fills all 65536 cells with 0x00 (70_reset_and_hazards.md R150). -/
def Memory.unlisted : Byte := 0x00

/-- The canonical form: addresses strictly rising and inside the 65536 cells, and no cell listed that reads as an unlisted
one, so that equal memories are equal lists. -/
abbrev Memory.wf (m : Memory) : Prop :=
  m.Pairwise (fun x y => x.1 < y.1) ∧ ∀ cell ∈ m, cell.1 < 65536 ∧ cell.2 ≠ Memory.unlisted

/-- Why a step request has no next state. -/
inductive Fault where
  /-- A step was requested of a core whose `status` is Faulted: no step exists there, and only a reset leaves it
  (60_exceptions.md R133). Raised by `fetchInstr`. Safe: the model stops where the hardware has no step (log 4). -/
  | coreFaulted
deriving DecidableEq, Repr

/-- Why the model refuses. -/
inductive Refusal where
  /-- An instruction that has no meaning in the model, by its mnemonic. Raised by no arm of `exec`: every instruction has
  its meaning. Safe. -/
  | notModelled (mnemonic : String)
  /-- A launch with an image longer than 65536 bytes (70_reset_and_hazards.md R151). Raised by `launch`, never by a step.
  Safe: nothing is claimed of such a launch. -/
  | imageTooLong
deriving DecidableEq, Repr

/-- The state tuple of 10_state.md. -/
structure State where
  /-- Register A. -/
  a : Byte
  /-- Register B. -/
  b : Byte
  /-- Register C. -/
  c : Byte
  /-- Register D. -/
  d : Byte
  /-- Register E. -/
  e : Byte
  /-- Register H. -/
  h : Byte
  /-- Register L. -/
  l : Byte
  /-- Register F, which holds the flags (R16, R18, R24). -/
  f : Byte
  /-- Program counter: the address of the next opcode (R20). -/
  pc : Word
  /-- Stack pointer (R23). -/
  sp : Word
  /-- Last cycle cost (R25). -/
  lcc : Byte
  /-- Fault status (R26). -/
  status : Status
  /-- Latched opcode of the fault (R26). -/
  fop : Byte
  /-- Latched address of the fault (R26). -/
  fpc : Word
  /-- The memory image M (R27). -/
  mem : Memory
deriving DecidableEq, Repr

/-- The core right after `Reset(RESET, IMAGE)` with the register values `r`, before the image is copied: memory zero,
`lcc` 0, Running, the latch 0 (70_reset_and_hazards.md R150, 10_state.md R30). -/
def State.initial (r : Config.ResetValues) : State :=
  { a := r.a, b := r.b, c := r.c, d := r.d, e := r.e, h := r.h, l := r.l, f := r.f
    pc := r.pc, sp := r.sp, lcc := 0, status := .running, fop := 0, fpc := 0, mem := [] }

/-- The machine right after reset, with the reference register values `RESET_ZERO` and the empty image. DESIGN CHOICE,
unsafe: the spec leaves both as parameters of a launch (log 1, log 2); `launch` takes every value of them. -/
def State.reset : State := State.initial Config.resetZero

end Sys2Proof.Machine
end

