-- ==== Sys2Proof/Machine/Ops.lean ====
section
/-! DEFINITION. The named operations over memory, registers, `pc` and `sp` (10_state.md R12 to R23, 20_memory.md R41,
R42), the end of every instruction (40_dispatch.md R80), and taking the UnimplementedOpcode condition (60_exceptions.md
R131). -/

namespace Sys2Proof.Machine

/-- What an instruction or a step answers. -/
abbrev Result := Host.Outcome State Fault Refusal

/-! Memory. -/

/-- The byte at address `addr` of the memory image. -/
def Memory.read : Memory → Nat → Byte
  | [], _ => Memory.unlisted
  | (k, v) :: rest, addr => if k = addr then v else Memory.read rest addr

/-- Store `v` at address `addr`, keeping the canonical form: a cell that becomes 0x00 is listed no more. -/
def Memory.write : Memory → Nat → Byte → Memory
  | [], addr, v => if v = Memory.unlisted then [] else [(addr, v)]
  | (k, w) :: rest, addr, v =>
    if addr < k then
      if v = Memory.unlisted then (k, w) :: rest else (addr, v) :: (k, w) :: rest
    else if addr = k then
      if v = Memory.unlisted then rest else (addr, v) :: rest
    else
      (k, w) :: Memory.write rest addr v

/-- `MemRead(addr, 1)`; a `Word` is an address already masked to 16 bits (20_memory.md R41). -/
def State.read (s : State) (addr : Word) : Byte := Memory.read s.mem addr.toNat

/-- `MemWrite(addr, 1, v)` (20_memory.md R42). -/
def State.write (s : State) (addr : Word) (v : Byte) : State :=
  { s with mem := Memory.write s.mem addr.toNat v }

/-- Store a list of bytes at consecutive addresses modulo 65536, the first at `addr`. -/
def State.writeBytes (s : State) (addr : Word) : List Byte → State
  | [] => s
  | v :: rest => State.writeBytes (s.write addr v) (addr + 1) rest

/-! Registers and pairs. -/

/-- `get(reg)` (10_state.md R12). -/
def State.getReg (s : State) : Reg → Byte
  | .a => s.a | .b => s.b | .c => s.c | .d => s.d | .e => s.e | .h => s.h | .l => s.l | .f => s.f

/-- `set(reg, value)` (10_state.md R12). -/
def State.setReg (s : State) (r : Reg) (v : Byte) : State :=
  match r with
  | .a => { s with a := v }
  | .b => { s with b := v }
  | .c => { s with c := v }
  | .d => { s with d := v }
  | .e => { s with e := v }
  | .h => { s with h := v }
  | .l => { s with l := v }
  | .f => { s with f := v }

/-- The high register of a pair (10_state.md R13). -/
def pairHi : Pair → Reg
  | .bc => .b | .de => .d | .hl => .h | .af => .a

/-- The low register of a pair (10_state.md R13). -/
def pairLo : Pair → Reg
  | .bc => .c | .de => .e | .hl => .l | .af => .f

/-- `getPair`: the view `high << 8 | low` (10_state.md R13). -/
def State.getPair (s : State) (p : Pair) : Word := wordOf (s.getReg (pairHi p)) (s.getReg (pairLo p))

/-- `setPair`: both halves at once (10_state.md R13, R15). -/
def State.setPair (s : State) (p : Pair) (w : Word) : State :=
  (s.setReg (pairHi p) (hiByte w)).setReg (pairLo p) (loByte w)

/-! Program counter and stack pointer. -/

/-- `setPC(addr)` (10_state.md R22). -/
def State.setPC (s : State) (addr : Word) : State := { s with pc := addr }

/-- `advancePC(n)`: `pc <- (pc + n) & 0xFFFF` (10_state.md R22). -/
def State.advancePC (s : State) (n : Word := 1) : State := s.setPC (s.pc + n)

/-- `setSP(addr)` (10_state.md R23). -/
def State.setSP (s : State) (addr : Word) : State := { s with sp := addr }

/-- The memory after a push whose new `sp` is `sp`: the high byte at `sp + 1`, then the low byte at `sp`, in that order at
every push site (45_stack.md R115, 46_restart.md R120). -/
def Memory.pushAt (m : Memory) (sp w : Word) : Memory :=
  Memory.write (Memory.write m (sp + 1).toNat (hiByte w)) sp.toNat (loByte w)

/-- Push a word: `sp <- sp - 2`, then the two writes (45_stack.md R115, 46_restart.md R120). -/
def State.pushWord (s : State) (w : Word) : State :=
  { s with sp := s.sp - 2, mem := Memory.pushAt s.mem (s.sp - 2) w }

/-- The word on top of the stack: low byte at `sp`, high byte at `sp + 1` (45_stack.md R116). -/
def State.topWord (s : State) : Word := wordOf (s.read (s.sp + 1)) (s.read s.sp)

/-! The end of an instruction. -/

/-- The report phase: `lcc <- COST[op]` (40_dispatch.md R80, R83). -/
def State.report (s : State) (op : Byte) : State := { s with lcc := Config.cost op }

/-- End of a straight-line instruction: `pc <- (pc + 1 + operandLength) & 0xFFFF` (10_state.md R21), then the report. -/
def straight (op : Byte) (operandLength : Word) (s : State) : Result :=
  .next ((s.advancePC (1 + operandLength)).report op)

/-- End of a control-flow instruction: `pc <- target` (10_state.md R21), then the report. -/
def redirect (op : Byte) (target : Word) (s : State) : Result :=
  .next ((s.setPC target).report op)

/-! The exception. There is no return from it: the only exit is a reset (60_exceptions.md R140; `launch`). -/

/-- `raise UnimplementedOpcode(op, at)`: latch the byte and its address and become Faulted; nothing else changes
(60_exceptions.md R131). -/
def State.raiseUnimplementedOpcode (s : State) (op : Byte) (addr : Word) : State :=
  { s with status := .faulted, fop := op, fpc := addr }

/-- The content of the host's diagnostic: the opcode and the address it was fetched from (60_exceptions.md R143). -/
def State.diagnostic (s : State) : Option (Byte × Word) :=
  match s.status with
  | .running => none
  | .faulted => some (s.fop, s.fpc)

end Sys2Proof.Machine
end

