-- ==== Sys2Proof/Machine/Flags.lean ====
section
/-! DEFINITION. The flags as bits of F (10_state.md R16, R17) and every flag computation of the spec (42_incdec8.md,
43_add16.md). -/

namespace Sys2Proof.Machine

/-- The bit of F that holds a flag (10_state.md R16). -/
def flagBit : Flag → Nat
  | .z => 7 | .n => 6 | .hf => 5 | .cf => 4

/-- The mask of a flag: 0x80, 0x40, 0x20 or 0x10 (10_state.md R17). -/
def flagMask (fl : Flag) : Byte := 1#8 <<< flagBit fl

/-- `getFlag(name)` (10_state.md R17). -/
def State.getFlag (s : State) (fl : Flag) : Bool := s.f.getLsbD (flagBit fl)

/-- F with one flag set or cleared, every other bit kept: `(F & ~mask) | (b << bit)` (10_state.md R17). -/
def putFlag (f : Byte) (fl : Flag) (b : Bool) : Byte := (f &&& ~~~flagMask fl) ||| (if b then flagMask fl else 0)

/-- `setFlag(name, b)` (10_state.md R17). -/
def State.setFlag (s : State) (fl : Flag) (b : Bool) : State := { s with f := putFlag s.f fl b }

/-- `res <- (v + 1) & 0xFF` (42_incdec8.md R100). -/
def incResult (v : Byte) : Byte := BitVec.ofNat 8 (v.toNat + 1)

/-- `res <- (v - 1) & 0xFF` (42_incdec8.md R101). -/
def decResult (v : Byte) : Byte := BitVec.ofInt 8 ((v.toNat : Int) - 1)

/-- The low nibble of a byte. -/
def lowNibble (v : Byte) : Nat := (v &&& 0x0F#8).toNat

/-- HalfCarry of an increment: `(res & 0x0F) < (v & 0x0F)` (42_incdec8.md R100). -/
def incHalfCarry (v : Byte) : Bool := decide (lowNibble (incResult v) < lowNibble v)

/-- HalfCarry of a decrement: `(res & 0x0F) > (v & 0x0F)` (42_incdec8.md R101). -/
def decHalfCarry (v : Byte) : Bool := decide (lowNibble (decResult v) > lowNibble v)

/-- F after `INC r` of operand `v`: Z, N, Hf written (42_incdec8.md R100). -/
def incF (f v : Byte) : Byte :=
  putFlag (putFlag (putFlag f .z (decide (incResult v = 0))) .n false) .hf (incHalfCarry v)

/-- F after `DEC r` of operand `v`: Z, N, Hf written (42_incdec8.md R101). -/
def decF (f v : Byte) : Byte :=
  putFlag (putFlag (putFlag f .z (decide (decResult v = 0))) .n true) .hf (decHalfCarry v)

/-- The flags of `INC r` for operand `v`. -/
def State.incFlags (s : State) (v : Byte) : State := { s with f := incF s.f v }

/-- The flags of `DEC r` for operand `v`. -/
def State.decFlags (s : State) (v : Byte) : State := { s with f := decF s.f v }

/-- The sum of two words as an unbounded number (43_add16.md R105). -/
def addSum (a b : Word) : Nat := a.toNat + b.toNat

/-- HalfCarry of the 16-bit add: carry out of bit 11 of the pre-operation values (43_add16.md R105). -/
def addHalfCarry (a b : Word) : Bool := decide ((a &&& 0x0FFF#16).toNat + (b &&& 0x0FFF#16).toNat > 0x0FFF)

/-- Carry of the 16-bit add: carry out of bit 15 (43_add16.md R105). -/
def addCarry (a b : Word) : Bool := decide (addSum a b > 0xFFFF)

/-- F after `ADD HL,pp` of operands `a` and `b`: N, Hf, Cf written (43_add16.md R105). -/
def addF (f : Byte) (a b : Word) : Byte :=
  putFlag (putFlag (putFlag f .n false) .hf (addHalfCarry a b)) .cf (addCarry a b)

/-- The flags of `ADD HL,pp` for operands `a` and `b`. -/
def State.addFlags (s : State) (a b : Word) : State := { s with f := addF s.f a b }

end Sys2Proof.Machine
end

