-- ==== Sys2Proof/Machine/Operands.lean ====
section
/-! DEFINITION. The operand forms (30_encoding.md R64, R65): coded registers, the pairs that address memory or are added,
the signed displacement and the restart vector. -/

namespace Sys2Proof.Machine

/-- The register a code names (10_state.md R11). -/
def opReg : OpReg → Reg
  | .b => .b | .c => .c | .d => .d | .e => .e | .h => .h | .l => .l | .a => .a

/-- `x[i]` (00_scope.md R8). -/
def State.x (s : State) (r : OpReg) : Byte := s.getReg (opReg r)

/-- `x[i] <- v` (00_scope.md R8). -/
def State.setX (s : State) (r : OpReg) (v : Byte) : State := s.setReg (opReg r) v

/-- The pair `rp[pp]` of `ADD HL,pp` (10_state.md R14). -/
def addPair : AddPair → Pair
  | .bc => .bc | .de => .de | .hl => .hl

/-- The pair of the field `p` (10_state.md R14). -/
def indPair : IndPair → Pair
  | .bc => .bc | .de => .de

/-- `sext_8(v)`, widened to 16 bits (00_scope.md R8, 30_encoding.md R64). -/
def sext8 (v : Byte) : Word := v.signExtend 16

/-- The target of `JR e` at address `pc`: the address after the operand plus the displacement (44_jumps.md R111). -/
def relativeTarget (pc : Word) (e : Byte) : Word := pc + 2 + sext8 e

/-- The target of `RST` with vector index `ttt`: `ttt << 3` (30_encoding.md R64, 46_restart.md R120). -/
def vectorAddress (ttt : BitVec 3) : Word := ttt.zeroExtend 16 <<< 3

end Sys2Proof.Machine
end

