-- ==== Sys2Proof/Machine/Add16.lean ====
section
/-! DEFINITION. 16-bit register-pair addition (43_add16.md). -/

namespace Sys2Proof.Machine

/-- `HL <- HL + rp[pp]`, both operands read before the write, with the flags of R105. -/
def addToHL (op : Byte) (p : AddPair) (s : State) : Result :=
  let a := s.getPair .hl
  let b := s.getPair (addPair p)
  straight op 0 ((s.setPair .hl (BitVec.ofNat 16 (addSum a b))).addFlags a b)

/-- `ADD HL,BC` (R105). -/
def execAddHLBC (s : State) : Result := addToHL 0x09#8 .bc s

/-- `ADD HL,DE` (R105). -/
def execAddHLDE (s : State) : Result := addToHL 0x19#8 .de s

/-- `ADD HL,HL` (R106). -/
def execAddHLHL (s : State) : Result := addToHL 0x29#8 .hl s

end Sys2Proof.Machine
end

