-- ==== Sys2Proof/Machine/Control.lean ====
section
/-! DEFINITION. The no-op (40_dispatch.md R81) and the unimplemented opcode (60_exceptions.md R131). -/

namespace Sys2Proof.Machine

/-- `NOP` (R81). -/
def execNop (s : State) : Result := straight 0x00#8 0 s

/-- An opcode byte with no decode-table entry: the step ends as R131 says, `lcc` and `pc` unchanged (R132). -/
def execUnimplemented (op : Byte) (s : State) : Result := .next (s.raiseUnimplementedOpcode op s.pc)

end Sys2Proof.Machine
end

