-- ==== Sys2Proof/Machine/IncDec.lean ====
section
/-! DEFINITION. 8-bit increment and decrement (42_incdec8.md). -/

namespace Sys2Proof.Machine

/-- `x[rrr] <- v + 1`, with the flags of R100. -/
def incReg (op : Byte) (r : OpReg) (s : State) : Result :=
  let v := s.x r
  straight op 0 ((s.setX r (incResult v)).incFlags v)

/-- `x[rrr] <- v - 1`, with the flags of R101. -/
def decReg (op : Byte) (r : OpReg) (s : State) : Result :=
  let v := s.x r
  straight op 0 ((s.setX r (decResult v)).decFlags v)

/-- `INC B` (R100). -/
def execIncB (s : State) : Result := incReg 0x04#8 .b s

/-- `INC C` (R100). -/
def execIncC (s : State) : Result := incReg 0x0C#8 .c s

/-- `INC D` (R100). -/
def execIncD (s : State) : Result := incReg 0x14#8 .d s

/-- `INC E` (R100). -/
def execIncE (s : State) : Result := incReg 0x1C#8 .e s

/-- `INC H` (R100). -/
def execIncH (s : State) : Result := incReg 0x24#8 .h s

/-- `INC L` (R100). -/
def execIncL (s : State) : Result := incReg 0x2C#8 .l s

/-- `INC A` (R100). -/
def execIncA (s : State) : Result := incReg 0x3C#8 .a s

/-- `DEC B` (R101). -/
def execDecB (s : State) : Result := decReg 0x05#8 .b s

/-- `DEC C` (R101). -/
def execDecC (s : State) : Result := decReg 0x0D#8 .c s

/-- `DEC D` (R101). -/
def execDecD (s : State) : Result := decReg 0x15#8 .d s

/-- `DEC E` (R101). -/
def execDecE (s : State) : Result := decReg 0x1D#8 .e s

/-- `DEC H` (R101). -/
def execDecH (s : State) : Result := decReg 0x25#8 .h s

/-- `DEC L` (R101). -/
def execDecL (s : State) : Result := decReg 0x2D#8 .l s

/-- `DEC A` (R101). -/
def execDecA (s : State) : Result := decReg 0x3D#8 .a s

end Sys2Proof.Machine
end

