-- ==== Sys2Proof/Machine/Jumps.lean ====
section
/-! DEFINITION. The absolute and the relative jump (44_jumps.md): they write `pc` and nothing else but `lcc`. -/

namespace Sys2Proof.Machine

/-- `JP nn` (R110). -/
def execJp (nn : Word) (s : State) : Result := redirect 0xC3#8 nn s

/-- `JR e` (R111). -/
def execJr (e : Byte) (s : State) : Result := redirect 0x18#8 (relativeTarget s.pc e) s

end Sys2Proof.Machine
end

