-- ==== Sys2Proof/Machine/Loads.lean ====
section
/-! DEFINITION. The 8-bit loads (41_loads.md): each copies one byte and writes no flag (R99). -/

namespace Sys2Proof.Machine

/-- `x[ddd] <- x[sss]` (R90). -/
def loadRegReg (op : Byte) (dst src : OpReg) (s : State) : Result :=
  straight op 0 (s.setX dst (s.x src))

/-- `x[rrr] <- n`, the operand byte (R91). -/
def loadRegImm (op : Byte) (dst : OpReg) (n : Byte) (s : State) : Result :=
  straight op 1 (s.setX dst n)

/-- `x[ddd] <- MemRead(pair, 1)`, the address formed before the write (R92, R95, R96). -/
def loadRegMem (op : Byte) (dst : OpReg) (addr : Pair) (s : State) : Result :=
  straight op 0 (s.setX dst (s.read (s.getPair addr)))

/-- `MemWrite(pair, 1, x[sss])` (R93, R97, R98). -/
def storeReg (op : Byte) (addr : Pair) (src : OpReg) (s : State) : Result :=
  straight op 0 (s.write (s.getPair addr) (s.x src))

/-- `MemWrite(pair, 1, n)`, the operand byte read before the write (R94). -/
def storeImm (op : Byte) (addr : Pair) (n : Byte) (s : State) : Result :=
  straight op 1 (s.write (s.getPair addr) n)

/-- `LD B,B` (R90). -/
def execLdBB (s : State) : Result := loadRegReg 0x40#8 .b .b s

/-- `LD B,C` (R90). -/
def execLdBC (s : State) : Result := loadRegReg 0x41#8 .b .c s

/-- `LD B,D` (R90). -/
def execLdBD (s : State) : Result := loadRegReg 0x42#8 .b .d s

/-- `LD B,E` (R90). -/
def execLdBE (s : State) : Result := loadRegReg 0x43#8 .b .e s

/-- `LD B,H` (R90). -/
def execLdBH (s : State) : Result := loadRegReg 0x44#8 .b .h s

/-- `LD B,L` (R90). -/
def execLdBL (s : State) : Result := loadRegReg 0x45#8 .b .l s

/-- `LD B,A` (R90). -/
def execLdBA (s : State) : Result := loadRegReg 0x47#8 .b .a s

/-- `LD C,B` (R90). -/
def execLdCB (s : State) : Result := loadRegReg 0x48#8 .c .b s

/-- `LD C,C` (R90). -/
def execLdCC (s : State) : Result := loadRegReg 0x49#8 .c .c s

/-- `LD C,D` (R90). -/
def execLdCD (s : State) : Result := loadRegReg 0x4A#8 .c .d s

/-- `LD C,E` (R90). -/
def execLdCE (s : State) : Result := loadRegReg 0x4B#8 .c .e s

/-- `LD C,H` (R90). -/
def execLdCH (s : State) : Result := loadRegReg 0x4C#8 .c .h s

/-- `LD C,L` (R90). -/
def execLdCL (s : State) : Result := loadRegReg 0x4D#8 .c .l s

/-- `LD C,A` (R90). -/
def execLdCA (s : State) : Result := loadRegReg 0x4F#8 .c .a s

/-- `LD D,B` (R90). -/
def execLdDB (s : State) : Result := loadRegReg 0x50#8 .d .b s

/-- `LD D,C` (R90). -/
def execLdDC (s : State) : Result := loadRegReg 0x51#8 .d .c s

/-- `LD D,D` (R90). -/
def execLdDD (s : State) : Result := loadRegReg 0x52#8 .d .d s

/-- `LD D,E` (R90). -/
def execLdDE (s : State) : Result := loadRegReg 0x53#8 .d .e s

/-- `LD D,H` (R90). -/
def execLdDH (s : State) : Result := loadRegReg 0x54#8 .d .h s

/-- `LD D,L` (R90). -/
def execLdDL (s : State) : Result := loadRegReg 0x55#8 .d .l s

/-- `LD D,A` (R90). -/
def execLdDA (s : State) : Result := loadRegReg 0x57#8 .d .a s

/-- `LD E,B` (R90). -/
def execLdEB (s : State) : Result := loadRegReg 0x58#8 .e .b s

/-- `LD E,C` (R90). -/
def execLdEC (s : State) : Result := loadRegReg 0x59#8 .e .c s

/-- `LD E,D` (R90). -/
def execLdED (s : State) : Result := loadRegReg 0x5A#8 .e .d s

/-- `LD E,E` (R90). -/
def execLdEE (s : State) : Result := loadRegReg 0x5B#8 .e .e s

/-- `LD E,H` (R90). -/
def execLdEH (s : State) : Result := loadRegReg 0x5C#8 .e .h s

/-- `LD E,L` (R90). -/
def execLdEL (s : State) : Result := loadRegReg 0x5D#8 .e .l s

/-- `LD E,A` (R90). -/
def execLdEA (s : State) : Result := loadRegReg 0x5F#8 .e .a s

/-- `LD H,B` (R90). -/
def execLdHB (s : State) : Result := loadRegReg 0x60#8 .h .b s

/-- `LD H,C` (R90). -/
def execLdHC (s : State) : Result := loadRegReg 0x61#8 .h .c s

/-- `LD H,D` (R90). -/
def execLdHD (s : State) : Result := loadRegReg 0x62#8 .h .d s

/-- `LD H,E` (R90). -/
def execLdHE (s : State) : Result := loadRegReg 0x63#8 .h .e s

/-- `LD H,H` (R90). -/
def execLdHH (s : State) : Result := loadRegReg 0x64#8 .h .h s

/-- `LD H,L` (R90). -/
def execLdHL (s : State) : Result := loadRegReg 0x65#8 .h .l s

/-- `LD H,A` (R90). -/
def execLdHA (s : State) : Result := loadRegReg 0x67#8 .h .a s

/-- `LD L,B` (R90). -/
def execLdLB (s : State) : Result := loadRegReg 0x68#8 .l .b s

/-- `LD L,C` (R90). -/
def execLdLC (s : State) : Result := loadRegReg 0x69#8 .l .c s

/-- `LD L,D` (R90). -/
def execLdLD (s : State) : Result := loadRegReg 0x6A#8 .l .d s

/-- `LD L,E` (R90). -/
def execLdLE (s : State) : Result := loadRegReg 0x6B#8 .l .e s

/-- `LD L,H` (R90). -/
def execLdLH (s : State) : Result := loadRegReg 0x6C#8 .l .h s

/-- `LD L,L` (R90). -/
def execLdLL (s : State) : Result := loadRegReg 0x6D#8 .l .l s

/-- `LD L,A` (R90). -/
def execLdLA (s : State) : Result := loadRegReg 0x6F#8 .l .a s

/-- `LD A,B` (R90). -/
def execLdAB (s : State) : Result := loadRegReg 0x78#8 .a .b s

/-- `LD A,C` (R90). -/
def execLdAC (s : State) : Result := loadRegReg 0x79#8 .a .c s

/-- `LD A,D` (R90). -/
def execLdAD (s : State) : Result := loadRegReg 0x7A#8 .a .d s

/-- `LD A,E` (R90). -/
def execLdAE (s : State) : Result := loadRegReg 0x7B#8 .a .e s

/-- `LD A,H` (R90). -/
def execLdAH (s : State) : Result := loadRegReg 0x7C#8 .a .h s

/-- `LD A,L` (R90). -/
def execLdAL (s : State) : Result := loadRegReg 0x7D#8 .a .l s

/-- `LD A,A` (R90). -/
def execLdAA (s : State) : Result := loadRegReg 0x7F#8 .a .a s

/-- `LD B,n` (R91). -/
def execLdBImm (n : Byte) (s : State) : Result := loadRegImm 0x06#8 .b n s

/-- `LD C,n` (R91). -/
def execLdCImm (n : Byte) (s : State) : Result := loadRegImm 0x0E#8 .c n s

/-- `LD D,n` (R91). -/
def execLdDImm (n : Byte) (s : State) : Result := loadRegImm 0x16#8 .d n s

/-- `LD E,n` (R91). -/
def execLdEImm (n : Byte) (s : State) : Result := loadRegImm 0x1E#8 .e n s

/-- `LD H,n` (R91). -/
def execLdHImm (n : Byte) (s : State) : Result := loadRegImm 0x26#8 .h n s

/-- `LD L,n` (R91). -/
def execLdLImm (n : Byte) (s : State) : Result := loadRegImm 0x2E#8 .l n s

/-- `LD A,n` (R91). -/
def execLdAImm (n : Byte) (s : State) : Result := loadRegImm 0x3E#8 .a n s

/-- `LD B,(HL)` (R92). -/
def execLdBMemHL (s : State) : Result := loadRegMem 0x46#8 .b .hl s

/-- `LD C,(HL)` (R92). -/
def execLdCMemHL (s : State) : Result := loadRegMem 0x4E#8 .c .hl s

/-- `LD D,(HL)` (R92). -/
def execLdDMemHL (s : State) : Result := loadRegMem 0x56#8 .d .hl s

/-- `LD E,(HL)` (R92). -/
def execLdEMemHL (s : State) : Result := loadRegMem 0x5E#8 .e .hl s

/-- `LD H,(HL)` (R92). -/
def execLdHMemHL (s : State) : Result := loadRegMem 0x66#8 .h .hl s

/-- `LD L,(HL)` (R92). -/
def execLdLMemHL (s : State) : Result := loadRegMem 0x6E#8 .l .hl s

/-- `LD A,(HL)` (R92). -/
def execLdAMemHL (s : State) : Result := loadRegMem 0x7E#8 .a .hl s

/-- `LD (HL),B` (R93). -/
def execLdMemHLB (s : State) : Result := storeReg 0x70#8 .hl .b s

/-- `LD (HL),C` (R93). -/
def execLdMemHLC (s : State) : Result := storeReg 0x71#8 .hl .c s

/-- `LD (HL),D` (R93). -/
def execLdMemHLD (s : State) : Result := storeReg 0x72#8 .hl .d s

/-- `LD (HL),E` (R93). -/
def execLdMemHLE (s : State) : Result := storeReg 0x73#8 .hl .e s

/-- `LD (HL),H` (R93). -/
def execLdMemHLH (s : State) : Result := storeReg 0x74#8 .hl .h s

/-- `LD (HL),L` (R93). -/
def execLdMemHLL (s : State) : Result := storeReg 0x75#8 .hl .l s

/-- `LD (HL),A` (R93). -/
def execLdMemHLA (s : State) : Result := storeReg 0x77#8 .hl .a s

/-- `LD (HL),n` (R94). -/
def execLdMemHLImm (n : Byte) (s : State) : Result := storeImm 0x36#8 .hl n s

/-- `LD A,(BC)` (R95). -/
def execLdAMemBC (s : State) : Result := loadRegMem 0x0A#8 .a .bc s

/-- `LD A,(DE)` (R96). -/
def execLdAMemDE (s : State) : Result := loadRegMem 0x1A#8 .a .de s

/-- `LD (BC),A` (R97). -/
def execLdMemBCA (s : State) : Result := storeReg 0x02#8 .bc .a s

/-- `LD (DE),A` (R98). -/
def execLdMemDEA (s : State) : Result := storeReg 0x12#8 .de .a s

end Sys2Proof.Machine
end

