-- ==== Sys2Proof/Machine/Restart.lean ====
section
/-! DEFINITION. The fixed-vector call (46_restart.md). -/

namespace Sys2Proof.Machine

/-- Push the return address `pc + 1`, then `pc <- ttt << 3` (R120). -/
def restart (op : Byte) (ttt : BitVec 3) (s : State) : Result :=
  redirect op (vectorAddress ttt) (s.pushWord (s.pc + 1))

/-- `RST 0x00` (R120). -/
def execRst00 (s : State) : Result := restart 0xC7#8 0 s

/-- `RST 0x08` (R120). -/
def execRst08 (s : State) : Result := restart 0xCF#8 1 s

/-- `RST 0x10` (R120). -/
def execRst10 (s : State) : Result := restart 0xD7#8 2 s

/-- `RST 0x18` (R120). -/
def execRst18 (s : State) : Result := restart 0xDF#8 3 s

/-- `RST 0x20` (R120). -/
def execRst20 (s : State) : Result := restart 0xE7#8 4 s

/-- `RST 0x28` (R120). -/
def execRst28 (s : State) : Result := restart 0xEF#8 5 s

/-- `RST 0x30` (R120). -/
def execRst30 (s : State) : Result := restart 0xF7#8 6 s

/-- `RST 0x38` (R120). -/
def execRst38 (s : State) : Result := restart 0xFF#8 7 s

end Sys2Proof.Machine
end

