-- ==== Sys2Proof/Machine/Stack.lean ====
section
/-! DEFINITION. Push and pop of a pair (45_stack.md). -/

namespace Sys2Proof.Machine

/-- Push the pair `rp2[qq]` (R115). -/
def pushPair (op : Byte) (p : Pair) (s : State) : Result :=
  straight op 0 (s.pushWord (s.getPair p))

/-- Pop into the pair `rp2[qq]`: both bytes read, the pair written, then `sp <- sp + 2` (R116). -/
def popPair (op : Byte) (p : Pair) (s : State) : Result :=
  straight op 0 ((s.setPair p s.topWord).setSP (s.sp + 2))

/-- `PUSH BC` (R115). -/
def execPushBC (s : State) : Result := pushPair 0xC5#8 .bc s

/-- `PUSH DE` (R115). -/
def execPushDE (s : State) : Result := pushPair 0xD5#8 .de s

/-- `PUSH HL` (R115). -/
def execPushHL (s : State) : Result := pushPair 0xE5#8 .hl s

/-- `PUSH AF` (R115). -/
def execPushAF (s : State) : Result := pushPair 0xF5#8 .af s

/-- `POP BC` (R116). -/
def execPopBC (s : State) : Result := popPair 0xC1#8 .bc s

/-- `POP DE` (R116). -/
def execPopDE (s : State) : Result := popPair 0xD1#8 .de s

/-- `POP HL` (R116). -/
def execPopHL (s : State) : Result := popPair 0xE1#8 .hl s

/-- `POP AF` (R116). -/
def execPopAF (s : State) : Result := popPair 0xF1#8 .af s

end Sys2Proof.Machine
end

