-- ==== Sys2Proof/Machine/Fetch.lean ====
section
/-! DEFINITION. Fetch and decode (40_dispatch.md R80, phases 1 and 2, and the operand bytes of phase 3). -/

namespace Sys2Proof.Machine

/-- The instruction at address `addr`: the opcode byte is looked up, then as many operand bytes are read, ascending, as
its entry says; addresses wrap (20_memory.md R49, 30_encoding.md R64). -/
def instrAt (s : State) (addr : Word) : Instr :=
  match decodeEntry (s.read addr) with
  | .bare i => i
  | .imm8 make => make (s.read (addr + 1))
  | .imm16 make => make (wordOf (s.read (addr + 2)) (s.read (addr + 1)))

/-- Fetch the next instruction: it is at `pc`, and a Faulted core fetches nothing (40_dispatch.md R80, 60_exceptions.md
R133). -/
def fetchInstr (s : State) : Except Fault Instr :=
  match s.status with
  | .running => .ok (instrAt s s.pc)
  | .faulted => .error .coreFaulted

end Sys2Proof.Machine
end

