-- ==== Sys2Proof/Machine/Step.lean ====
section
/-! DEFINITION. One dispatch step (40_dispatch.md R80). -/

namespace Sys2Proof.Machine

/-- One step: fetch and decode at `pc`, then the instruction's meaning, which ends with the report phase. -/
def step (s : State) : Host.Outcome State Fault Refusal :=
  match fetchInstr s with
  | .ok i => exec i s
  | .error r => .fault r

/-- `s` with the bytes of an opcode-table word stored at `pc`, where the next step fetches (log 2). -/
def State.withFetchWord (s : State) (nbits w : Nat) : State := s.writeBytes s.pc (tableBytes nbits w)

end Sys2Proof.Machine
end

