-- ==== Sys2Proof/Machine/Accesses.lean ====
section
/-! DEFINITION. Which data bytes each instruction reads and writes: the table of 20_memory.md R54. `s` is the state before
the step. -/

namespace Sys2Proof.Machine

/-- The addresses of the data bytes an instruction reads (R54). -/
def dataReads (i : Instr) (s : State) : List Word :=
  match i with
  | .ldBMemHL | .ldCMemHL | .ldDMemHL | .ldEMemHL | .ldHMemHL | .ldLMemHL | .ldAMemHL => [s.getPair .hl]
  | .ldAMemBC => [s.getPair .bc]
  | .ldAMemDE => [s.getPair .de]
  | .popBC | .popDE | .popHL | .popAF => [s.sp, s.sp + 1]
  | .nop | .ldBB | .ldBC | .ldBD | .ldBE | .ldBH | .ldBL | .ldBA | .ldCB | .ldCC | .ldCD | .ldCE | .ldCH
  | .ldCL | .ldCA | .ldDB | .ldDC | .ldDD | .ldDE | .ldDH | .ldDL | .ldDA | .ldEB | .ldEC | .ldED | .ldEE
  | .ldEH | .ldEL | .ldEA | .ldHB | .ldHC | .ldHD | .ldHE | .ldHH | .ldHL | .ldHA | .ldLB | .ldLC | .ldLD
  | .ldLE | .ldLH | .ldLL | .ldLA | .ldAB | .ldAC | .ldAD | .ldAE | .ldAH | .ldAL | .ldAA | .ldBImm _
  | .ldCImm _ | .ldDImm _ | .ldEImm _ | .ldHImm _ | .ldLImm _ | .ldAImm _ | .ldMemHLB | .ldMemHLC | .ldMemHLD
  | .ldMemHLE | .ldMemHLH | .ldMemHLL | .ldMemHLA | .ldMemHLImm _ | .ldMemBCA | .ldMemDEA | .incB | .incC
  | .incD | .incE | .incH | .incL | .incA | .decB | .decC | .decD | .decE | .decH | .decL | .decA | .addHLBC
  | .addHLDE | .addHLHL | .jp _ | .jr _ | .pushBC | .pushDE | .pushHL | .pushAF | .rst00 | .rst08 | .rst10
  | .rst18 | .rst20 | .rst28 | .rst30 | .rst38 | .unimplemented _ => []

/-- The addresses of the data bytes an instruction writes, in order (R54). -/
def dataWrites (i : Instr) (s : State) : List Word :=
  match i with
  | .ldMemHLB | .ldMemHLC | .ldMemHLD | .ldMemHLE | .ldMemHLH | .ldMemHLL | .ldMemHLA | .ldMemHLImm _ => [s.getPair .hl]
  | .ldMemBCA => [s.getPair .bc]
  | .ldMemDEA => [s.getPair .de]
  | .pushBC | .pushDE | .pushHL | .pushAF | .rst00 | .rst08 | .rst10 | .rst18 | .rst20 | .rst28 | .rst30
  | .rst38 => [s.sp - 1, s.sp - 2]
  | .nop | .ldBB | .ldBC | .ldBD | .ldBE | .ldBH | .ldBL | .ldBA | .ldCB | .ldCC | .ldCD | .ldCE | .ldCH
  | .ldCL | .ldCA | .ldDB | .ldDC | .ldDD | .ldDE | .ldDH | .ldDL | .ldDA | .ldEB | .ldEC | .ldED | .ldEE
  | .ldEH | .ldEL | .ldEA | .ldHB | .ldHC | .ldHD | .ldHE | .ldHH | .ldHL | .ldHA | .ldLB | .ldLC | .ldLD
  | .ldLE | .ldLH | .ldLL | .ldLA | .ldAB | .ldAC | .ldAD | .ldAE | .ldAH | .ldAL | .ldAA | .ldBImm _
  | .ldCImm _ | .ldDImm _ | .ldEImm _ | .ldHImm _ | .ldLImm _ | .ldAImm _ | .ldBMemHL | .ldCMemHL | .ldDMemHL
  | .ldEMemHL | .ldHMemHL | .ldLMemHL | .ldAMemHL | .ldAMemBC | .ldAMemDE | .incB | .incC | .incD | .incE
  | .incH | .incL | .incA | .decB | .decC | .decD | .decE | .decH | .decL | .decA | .addHLBC | .addHLDE
  | .addHLHL | .jp _ | .jr _ | .popBC | .popDE | .popHL | .popAF | .unimplemented _ => []

end Sys2Proof.Machine
end

