-- ==== Sys2Proof/Machine/Boot.lean ====
section
/-! DEFINITION. The reset procedure with its two parameters (70_reset_and_hazards.md R150, R151). -/

namespace Sys2Proof.Machine

/-- `Reset(RESET, IMAGE)`: zero fill, then the image from address 0, then the registers (R150). An image longer than 65536
bytes is refused (R151). No state before the reset takes part, so none is an argument. -/
def launch (r : Config.ResetValues) (image : List Byte) : Result :=
  if image.length ≤ 65536 then .next ((State.initial r).writeBytes 0 image) else .refused .imageTooLong

end Sys2Proof.Machine
end

