-- ==== Sys2Proof/Machine/Requests.lean ====
section
/-! DEFINITION. The two moves of the host (80_host_and_timing.md R171). -/

namespace Sys2Proof.Machine

/-- What the host can ask of the core (R171); it writes no state otherwise (R173, log 5). -/
inductive Request where
  /-- `Reset(RESET, IMAGE)`, at any time between steps, also from Faulted. -/
  | reset (r : Config.ResetValues) (image : List Byte)
  /-- `Step`. -/
  | step
deriving DecidableEq, Repr

/-- The core's answer to a request. -/
def serve (q : Request) (s : State) : Result :=
  match q with
  | .reset r image => launch r image
  | .step => step s

end Sys2Proof.Machine
end

