-- ==== Sys2Proof/Safety.lean ====
section
/-! DEFINITION. What counts as a safe run, the invariant of the core, and the words in which frames are stated. -/

namespace Sys2Proof.Machine

/-- A core that can go on: a Faulted core is never a good one (60_exceptions.md R133, 80_host_and_timing.md R175). -/
def Safe (s : State) : Prop := s.status = .running

/-- `t` is reached from `s` by zero or more steps. -/
inductive Reaches (s : State) : State → Prop where
  | refl : Reaches s s
  | tail {t u : State} (reached : Reaches s t) (next : step t = .next u) : Reaches s u

/-- No run from `s` ever meets the fault. -/
def StaysSafe (s : State) : Prop := ∀ t, Reaches s t → Safe t

/-- What holds after reset and after every step (10_state.md R29, 60_exceptions.md R132). The ranges of R29 hold by the
types. -/
structure Inv (s : State) : Prop where
  /-- The memory is in its canonical form. -/
  memory : Memory.wf s.mem
  /-- `lcc` is 0 or the cost of an implemented opcode. -/
  reported : s.lcc = 0 ∨ ∃ op, implemented op = true ∧ s.lcc = Config.cost op
  /-- A fault is precise: `pc` still holds the address of the faulting byte, which the latch names. -/
  precise : s.status = .faulted → s.fpc = s.pc ∧ s.fop = s.read s.pc ∧ implemented s.fop = false
  /-- While the core runs, the latch is as reset left it. -/
  latchClear : s.status = .running → s.fop = 0 ∧ s.fpc = 0

/-- Every register but those of `ws` is unchanged. -/
def SameRegsExcept (ws : List Reg) (s t : State) : Prop := ∀ r, r ∉ ws → t.getReg r = s.getReg r

/-- `sp`, `status`, `fop` and `fpc` are unchanged. -/
def SameControl (s t : State) : Prop :=
  t.sp = s.sp ∧ t.status = s.status ∧ t.fop = s.fop ∧ t.fpc = s.fpc

/-- Every byte of memory but those at `addrs` reads as before. -/
def SameBytesExcept (addrs : List Word) (s t : State) : Prop := ∀ addr, addr ∉ addrs → t.read addr = s.read addr

end Sys2Proof.Machine
end

