-- ==== Sys2Proof/Certificates/Slice0/Obligations.lean ====
section
/-! DEFINITION. The statements about the core, from the numbered rules of spec/. Families of instructions are written with
their operands as `Instr.ldRegReg`, `Instr.inc`, … (Decode.lean), each of which stands for the constructors its docstring
in OBLIGATIONS.json names. -/

open Sys2Proof Sys2Proof.Machine

/-! Encoding (30_encoding.md). -/

/-- R60, R61, R63, R66: decoding the bytes of a well-formed instruction, whatever follows them, gives the instruction back
and leaves the rest. All 112 constructors. -/
def Obligations.DecodeOfEncode : Prop :=
  ∀ (i : Instr) (rest : List Byte), i.wellFormed = true → decode (encode i ++ rest) = .ok (i, rest)

/-- R66, R68: what decodes is well formed, and its encoding is the very bytes read: no two encodings of one instruction, and
no byte lost. -/
def Obligations.EncodeOfDecode : Prop :=
  ∀ (bytes : List Byte) (i : Instr) (rest : List Byte),
    decode bytes = .ok (i, rest) → i.wellFormed = true ∧ encode i ++ rest = bytes

/-- R61: the opcode byte alone fixes the length, and every value of the operand bytes is legal. -/
def Obligations.OpcodeAloneFixesLength : Prop :=
  ∀ (op : Byte) (operands rest : List Byte), operands.length = (decodeEntry op).operandLength →
    ∃ i, decode (op :: (operands ++ rest)) = .ok (i, rest) ∧ encode i = op :: operands

/-- R63: the eight formats, bit 7 leftmost; and the two bytes its tables call unimplemented. -/
def Obligations.FormatsAreEncoded : Prop :=
  encode .nop = [0b00000000#8] ∧
  (∀ dst src, encode (Instr.ldRegReg dst src) = [0b01#2 ++ dst.code ++ src.code]) ∧
  (∀ dst, encode (Instr.ldRegMem dst) = [0b01#2 ++ dst.code ++ 0b110#3]) ∧
  (∀ src, encode (Instr.ldMemReg src) = [0b01#2 ++ 0b110#3 ++ src.code]) ∧
  decodeEntry 0x76 = .bare (.unimplemented 0x76) ∧
  (∀ r, encode (Instr.inc r) = [0b00#2 ++ r.code ++ 0b100#3]) ∧
  (∀ r, encode (Instr.dec r) = [0b00#2 ++ r.code ++ 0b101#3]) ∧
  (∀ r n, encode (Instr.ldRegImm r n) = [0b00#2 ++ r.code ++ 0b110#3, n]) ∧
  (∀ n, encode (.ldMemHLImm n) = [0b00#2 ++ 0b110#3 ++ 0b110#3, n]) ∧
  (∀ p, encode (Instr.addHL p) = [0b00#2 ++ p.code ++ 0b1001#4]) ∧
  decodeEntry (0b00#2 ++ 3#2 ++ 0b1001#4) = .bare (.unimplemented 0x39) ∧
  (∀ q, encode (Instr.push q) = [0b11#2 ++ q.code ++ 0b0101#4]) ∧
  (∀ q, encode (Instr.pop q) = [0b11#2 ++ q.code ++ 0b0001#4]) ∧
  (∀ p, encode (Instr.ldIndA p) = [0b000#3 ++ p.code ++ 0b0010#4]) ∧
  (∀ p, encode (Instr.ldAInd p) = [0b000#3 ++ p.code ++ 0b1010#4]) ∧
  (∀ ttt : Fin 8, encode (Instr.rst ttt) = [0b11#2 ++ (BitVec.ofFin ttt : BitVec 3) ++ 0b111#3]) ∧
  (∀ nn : Word, encode (.jp nn) = [0b11000011#8, nn.extractLsb' 0 8, nn.extractLsb' 8 8]) ∧
  (∀ e, encode (.jr e) = [0b00011000#8, e])

/-- R68: the 145 bytes it lists, and no other, have no decode-table entry of their own; each decodes as unimplemented. -/
def Obligations.UnimplementedBytes : Prop :=
  ∀ op : Byte, implemented op = false ↔ decodeEntry op = .bare (.unimplemented op)

/-- 30_encoding.md, 95_test_vectors.md: one word of each family, written out from the spec, decodes to its instruction. -/
def Obligations.KnownWordsDecode : Prop :=
  decode [0x00] = .ok (.nop, []) ∧ decode [0x78] = .ok (.ldAB, []) ∧ decode [0x3E, 0x0F] = .ok (.ldAImm 0x0F, []) ∧
  decode [0x66] = .ok (.ldHMemHL, []) ∧ decode [0x70] = .ok (.ldMemHLB, []) ∧
  decode [0x36, 0x5A] = .ok (.ldMemHLImm 0x5A, []) ∧ decode [0x1A] = .ok (.ldAMemDE, []) ∧
  decode [0x02] = .ok (.ldMemBCA, []) ∧ decode [0x3C] = .ok (.incA, []) ∧ decode [0x0D] = .ok (.decC, []) ∧
  decode [0x29] = .ok (.addHLHL, []) ∧ decode [0xC3, 0x00, 0x02] = .ok (.jp 0x0200, []) ∧
  decode [0x18, 0xFB] = .ok (.jr 0xFB, []) ∧ decode [0xF5] = .ok (.pushAF, []) ∧ decode [0xD1] = .ok (.popDE, []) ∧
  decode [0xEF] = .ok (.rst28, []) ∧ decode [0xCB, 0x00] = .ok (.unimplemented 0xCB, [0x00])

/-! The step (40_dispatch.md). -/

/-- R80: when the bytes at `pc` decode to an instruction, the step of a running core is that instruction's meaning, the
report included, and nothing around it. -/
def Obligations.StepRunsTheDecodedInstruction : Prop :=
  ∀ (s : State) (i : Instr) (rest : List Byte), s.status = .running →
    decode [s.read s.pc, s.read (s.pc + 1), s.read (s.pc + 2)] = .ok (i, rest) → step s = exec i s

/-- R84: every step of a running core completes, whatever memory and registers hold. -/
def Obligations.StepOfRunningCoreCompletes : Prop :=
  ∀ s : State, s.status = .running → ∃ t, step s = .next t

/-- R133, in the form log 4 names: a Faulted core has no step; and a reset serves it (R140, R171). -/
def Obligations.FaultedCoreHasNoStep : Prop :=
  ∀ s : State, s.status = .faulted →
    step s = .fault .coreFaulted ∧
    ∀ (r : Config.ResetValues) (image : List Byte), image.length ≤ 65536 →
      ∃ t, serve (.reset r image) s = .next t ∧ t.status = .running

/-- R26, R131, R136: a step makes a running core Faulted exactly when the byte at `pc` is unimplemented; nothing else
faults. -/
def Obligations.FaultsExactlyOnUnimplementedByte : Prop :=
  ∀ s : State, s.status = .running →
    ∃ t, step s = .next t ∧ (t.status = .faulted ↔ implemented (s.read s.pc) = false)

/-- R131, R132, R143: the step of a running core at an unimplemented byte latches the byte and its address, becomes Faulted
and changes nothing else; the diagnostic carries the two. -/
def Obligations.UnimplementedStepLatches : Prop :=
  ∀ s : State, s.status = .running → implemented (s.read s.pc) = false →
    ∃ t, step s = .next t ∧ t = { s with status := .faulted, fop := s.read s.pc, fpc := s.pc } ∧
      t.diagnostic = some (s.read s.pc, s.pc)

/-- R131: the unimplemented opcode's own effect is to take the condition, at every byte and in every state. -/
def Obligations.UnimplementedOpcodeIsTaken : Prop :=
  ∀ (op : Byte) (s : State),
    exec (.unimplemented op) s = .next { s with status := .faulted, fop := op, fpc := s.pc }

/-- R83: a step reports the cost of the instruction it executed and of no other; no transformation reads `lcc`; a step that
raises UnimplementedOpcode leaves `lcc` as it was. -/
def Obligations.StepReportsItsOwnCost : Prop :=
  ∀ (s : State) (v : Byte), s.status = .running →
    ∃ t, step s = .next t ∧
      (implemented (s.read s.pc) = true →
        t.lcc = Config.cost (s.read s.pc) ∧ step { s with lcc := v } = .next t) ∧
      (implemented (s.read s.pc) = false →
        t.lcc = s.lcc ∧ step { s with lcc := v } = .next { t with lcc := v })

/-- R160 and log 3: the costs the machine reports meet the two limits the spec sets; its reference instance has an entry for
each implemented byte and no other, and meets them too. -/
def Obligations.CostsMeetTheirLimits : Prop :=
  Config.cost 0xC3 = 12 ∧ Config.costRef 0xC3 = some 12 ∧
  ∀ op : Byte, 1 ≤ (Config.cost op).toNat ∧ (Config.costRef op).isSome = implemented op ∧ Config.costRef op ≠ some 0

/-! Results, instruction by instruction. Each says that the instruction answers a next state, for every state and operand,
and which. -/

/-- R81: `NOP` (nop), and the running core at a zero byte. -/
def Obligations.NopOnlyAdvances : Prop :=
  encode .nop = [0x00] ∧ Config.costRef 0x00 = some 4 ∧
  ∀ s : State,
    exec .nop s = .next { s with pc := s.pc + 1, lcc := Config.cost 0x00 } ∧
    (s.status = .running → s.read s.pc = 0x00 →
      step s = .next { s with pc := s.pc + 1, lcc := Config.cost 0x00 })

/-- R90: `LD r,r'`, 49 constructors ldBB to ldAA. -/
def Obligations.LoadRegisterFromRegister : Prop :=
  ∀ (dst src : OpReg) (s : State),
    encode (Instr.ldRegReg dst src) = [0b01#2 ++ dst.code ++ src.code] ∧
    Config.costRef (0b01#2 ++ dst.code ++ src.code) = some 4 ∧
    exec (Instr.ldRegReg dst src) s =
      .next { s.setX dst (s.x src) with pc := s.pc + 1, lcc := Config.cost (0b01#2 ++ dst.code ++ src.code) }

/-- R91: `LD r,n`, 7 constructors ldBImm to ldAImm. -/
def Obligations.LoadRegisterImmediate : Prop :=
  ∀ (dst : OpReg) (n : Byte) (s : State),
    encode (Instr.ldRegImm dst n) = [0b00#2 ++ dst.code ++ 0b110#3, n] ∧
    Config.costRef (0b00#2 ++ dst.code ++ 0b110#3) = some 8 ∧
    exec (Instr.ldRegImm dst n) s =
      .next { s.setX dst n with pc := s.pc + 2, lcc := Config.cost (0b00#2 ++ dst.code ++ 0b110#3) } ∧
    (s.status = .running → s.read s.pc = 0b00#2 ++ dst.code ++ 0b110#3 →
      step s = exec (Instr.ldRegImm dst (s.read (s.pc + 1))) s)

/-- R92: `LD r,(HL)`, 7 constructors ldBMemHL to ldAMemHL; the address is that of H and L before the instruction. -/
def Obligations.LoadRegisterFromMemory : Prop :=
  ∀ (dst : OpReg) (s : State),
    encode (Instr.ldRegMem dst) = [0b01#2 ++ dst.code ++ 0b110#3] ∧
    Config.costRef (0b01#2 ++ dst.code ++ 0b110#3) = some 8 ∧
    exec (Instr.ldRegMem dst) s =
      .next { s.setX dst (s.read (wordOf s.h s.l)) with
        pc := s.pc + 1, lcc := Config.cost (0b01#2 ++ dst.code ++ 0b110#3) }

/-- R93: `LD (HL),r`, 7 constructors ldMemHLB to ldMemHLA; byte 0x76 is none of them. -/
def Obligations.StoreRegisterToMemory : Prop :=
  decodeEntry 0x76 = .bare (.unimplemented 0x76) ∧
  ∀ (src : OpReg) (s : State),
    encode (Instr.ldMemReg src) = [0b01#2 ++ 0b110#3 ++ src.code] ∧
    Config.costRef (0b01#2 ++ 0b110#3 ++ src.code) = some 8 ∧
    exec (Instr.ldMemReg src) s =
      .next { s.write (wordOf s.h s.l) (s.x src) with
        pc := s.pc + 1, lcc := Config.cost (0b01#2 ++ 0b110#3 ++ src.code) }

/-- R94: `LD (HL),n` (ldMemHLImm); overwriting its own operand byte changes nothing, since the operand is read first. -/
def Obligations.StoreImmediateToMemory : Prop :=
  ∀ (n : Byte) (s : State),
    encode (.ldMemHLImm n) = [0x36, n] ∧ Config.costRef 0x36 = some 12 ∧
    exec (.ldMemHLImm n) s =
      .next { s.write (wordOf s.h s.l) n with pc := s.pc + 2, lcc := Config.cost 0x36 } ∧
    (s.status = .running → Memory.wf s.mem → s.read s.pc = 0x36 → wordOf s.h s.l = s.pc + 1 →
      step s = .next { s with pc := s.pc + 2, lcc := Config.cost 0x36 })

/-- R95, R96: `LD A,(BC)` (ldAMemBC) and `LD A,(DE)` (ldAMemDE). -/
def Obligations.LoadAThroughPair : Prop :=
  encode .ldAMemBC = [0x0A] ∧ Config.costRef 0x0A = some 8 ∧
  encode .ldAMemDE = [0x1A] ∧ Config.costRef 0x1A = some 8 ∧
  ∀ s : State,
    exec .ldAMemBC s = .next { s with a := s.read (wordOf s.b s.c), pc := s.pc + 1, lcc := Config.cost 0x0A } ∧
    exec .ldAMemDE s = .next { s with a := s.read (wordOf s.d s.e), pc := s.pc + 1, lcc := Config.cost 0x1A }

/-- R97, R98: `LD (BC),A` (ldMemBCA) and `LD (DE),A` (ldMemDEA). -/
def Obligations.StoreAThroughPair : Prop :=
  encode .ldMemBCA = [0x02] ∧ Config.costRef 0x02 = some 8 ∧
  encode .ldMemDEA = [0x12] ∧ Config.costRef 0x12 = some 8 ∧
  ∀ s : State,
    exec .ldMemBCA s = .next { s.write (wordOf s.b s.c) s.a with pc := s.pc + 1, lcc := Config.cost 0x02 } ∧
    exec .ldMemDEA s = .next { s.write (wordOf s.d s.e) s.a with pc := s.pc + 1, lcc := Config.cost 0x12 }

/-- R100: `INC r`, 7 constructors incB to incA, with all three forms of the HalfCarry condition. -/
def Obligations.IncrementRegister : Prop :=
  ∀ (r : OpReg) (s : State),
    encode (Instr.inc r) = [0b00#2 ++ r.code ++ 0b100#3] ∧
    Config.costRef (0b00#2 ++ r.code ++ 0b100#3) = some 4 ∧
    ∃ t, exec (Instr.inc r) s = .next t ∧
      t.x r = s.x r + 1 ∧
      (t.getFlag .z = true ↔ t.x r = 0) ∧ (t.getFlag .z = true ↔ s.x r = 0xFF) ∧
      t.getFlag .n = false ∧
      (t.getFlag .hf = true ↔ t.x r &&& 0x0F < s.x r &&& 0x0F) ∧
      (t.getFlag .hf = true ↔ s.x r &&& 0x0F = 0x0F) ∧
      (t.getFlag .hf = true ↔ (s.x r &&& 0x0F).toNat + 1 > 0x0F) ∧
      t.getFlag .cf = s.getFlag .cf ∧ t.f &&& 0x0F = s.f &&& 0x0F ∧
      t.pc = s.pc + 1 ∧ t.lcc = Config.cost (0b00#2 ++ r.code ++ 0b100#3) ∧
      SameRegsExcept [opReg r, .f] s t ∧ SameControl s t ∧ t.mem = s.mem

/-- R101: `DEC r`, 7 constructors decB to decA. -/
def Obligations.DecrementRegister : Prop :=
  ∀ (r : OpReg) (s : State),
    encode (Instr.dec r) = [0b00#2 ++ r.code ++ 0b101#3] ∧
    Config.costRef (0b00#2 ++ r.code ++ 0b101#3) = some 4 ∧
    ∃ t, exec (Instr.dec r) s = .next t ∧
      t.x r = s.x r - 1 ∧
      (t.getFlag .z = true ↔ t.x r = 0) ∧ (t.getFlag .z = true ↔ s.x r = 0x01) ∧
      t.getFlag .n = true ∧
      (t.getFlag .hf = true ↔ t.x r &&& 0x0F > s.x r &&& 0x0F) ∧
      (t.getFlag .hf = true ↔ s.x r &&& 0x0F = 0x00) ∧
      t.getFlag .cf = s.getFlag .cf ∧ t.f &&& 0x0F = s.f &&& 0x0F ∧
      t.pc = s.pc + 1 ∧ t.lcc = Config.cost (0b00#2 ++ r.code ++ 0b101#3) ∧
      SameRegsExcept [opReg r, .f] s t ∧ SameControl s t ∧ t.mem = s.mem

/-- R102: increment then decrement, and decrement then increment, give the register back, with the flags of the second and
Carry as at first. -/
def Obligations.IncrementDecrementRoundTrip : Prop :=
  ∀ (r : OpReg) (s : State),
    (∃ t u, exec (Instr.inc r) s = .next t ∧ exec (Instr.dec r) t = .next u ∧
      u.x r = s.x r ∧ u.getFlag .n = true ∧ (u.getFlag .z = true ↔ s.x r = 0) ∧
      u.getFlag .cf = s.getFlag .cf) ∧
    (∃ t u, exec (Instr.dec r) s = .next t ∧ exec (Instr.inc r) t = .next u ∧
      u.x r = s.x r ∧ u.getFlag .n = false ∧ (u.getFlag .z = true ↔ s.x r = 0) ∧
      u.getFlag .cf = s.getFlag .cf)

/-- R105: `ADD HL,pp`, constructors addHLBC, addHLDE, addHLHL. That Z is unchanged is decision D16 of
92_eei_decisions.md, the spec's own choice. -/
def Obligations.AddPairToHL : Prop :=
  ∀ (p : AddPair) (s : State),
    encode (Instr.addHL p) = [0b00#2 ++ p.code ++ 0b1001#4] ∧
    ∃ t, exec (Instr.addHL p) s = .next t ∧
      (t.getPair .hl).toNat = ((s.getPair .hl).toNat + (s.getPair (addPair p)).toNat) % 65536 ∧
      t.getFlag .n = false ∧
      (t.getFlag .hf = true ↔
        (s.getPair .hl).toNat % 4096 + (s.getPair (addPair p)).toNat % 4096 > 0x0FFF) ∧
      (t.getFlag .cf = true ↔ (s.getPair .hl).toNat + (s.getPair (addPair p)).toNat > 0xFFFF) ∧
      t.getFlag .z = s.getFlag .z ∧ t.f &&& 0x0F = s.f &&& 0x0F ∧
      t.pc = s.pc + 1 ∧ t.lcc = Config.cost (0b00#2 ++ p.code ++ 0b1001#4) ∧
      SameRegsExcept [.h, .l, .f] s t ∧ SameControl s t ∧ t.mem = s.mem

/-- R106: `ADD HL,HL` (addHLHL) doubles HL, a left shift by one; HalfCarry is the old bit 11 and Carry the old bit 15. -/
def Obligations.DoubleHL : Prop :=
  encode .addHLHL = [0x29] ∧
  ∀ s : State, ∃ t, exec .addHLHL s = .next t ∧
    t.getPair .hl = s.getPair .hl <<< 1 ∧ (t.getPair .hl).toNat = 2 * (s.getPair .hl).toNat % 65536 ∧
    t.getFlag .n = false ∧ t.getFlag .hf = (s.getPair .hl).getLsbD 11 ∧ t.getFlag .cf = (s.getPair .hl).getLsbD 15

/-- R110: `JP nn` (jp), as an instruction and as the step of a running core at the byte 0xC3, wherever it stands. -/
def Obligations.AbsoluteJump : Prop :=
  (∀ nn : Word, encode (.jp nn) = [0xC3, loByte nn, hiByte nn]) ∧
  (∀ (nn : Word) (s : State), exec (.jp nn) s = .next { s with pc := nn, lcc := 12 }) ∧
  ∀ s : State, s.status = .running → s.read s.pc = 0xC3 →
    step s = .next { s with pc := wordOf (s.read (s.pc + 2)) (s.read (s.pc + 1)), lcc := 12 }

/-- R111: `JR e` (jr): the address after the operand plus the signed displacement, modulo 65536; nothing else but `lcc`
changes, memory in particular. -/
def Obligations.RelativeJump : Prop :=
  ∀ (e : Byte) (s : State),
    encode (.jr e) = [0x18, e] ∧ Config.costRef 0x18 = some 8 ∧
    (∃ t, exec (.jr e) s = .next t ∧
      (t.pc.toNat : Int) = ((s.pc.toNat : Int) + 2 + e.toInt) % 65536 ∧
      t = { s with pc := t.pc, lcc := Config.cost 0x18 }) ∧
    (s.status = .running → s.read s.pc = 0x18 → step s = exec (.jr (s.read (s.pc + 1))) s)

/-- R84: `JR -2` is an endless loop of completed steps, not a stuck core: each answers a state that differs in `lcc`
only. -/
def Obligations.JumpToItselfCompletes : Prop :=
  ∀ s : State, exec (.jr 0xFE) s = .next { s with lcc := Config.cost 0x18 } ∧
    exec (.jp s.pc) s = .next { s with lcc := 12 }

/-- R115: `PUSH qq`, constructors pushBC, pushDE, pushHL, pushAF: high register at the old `sp` less 1, low register at the
new `sp`, all eight bits of F for AF. -/
def Obligations.PushPair : Prop :=
  ∀ (q : Pair) (s : State),
    encode (Instr.push q) = [0b11#2 ++ q.code ++ 0b0101#4] ∧
    Config.costRef (0b11#2 ++ q.code ++ 0b0101#4) = some 16 ∧
    exec (Instr.push q) s =
      .next { (s.write (s.sp - 2 + 1) (s.getReg (pairHi q))).write (s.sp - 2) (s.getReg (pairLo q)) with
        sp := s.sp - 2, pc := s.pc + 1, lcc := Config.cost (0b11#2 ++ q.code ++ 0b0101#4) }

/-- R116: `POP qq`, constructors popBC, popDE, popHL, popAF: low register from `sp`, high register from `sp + 1`; `POP AF`
loads all of F. -/
def Obligations.PopPair : Prop :=
  ∀ (q : Pair) (s : State),
    encode (Instr.pop q) = [0b11#2 ++ q.code ++ 0b0001#4] ∧
    Config.costRef (0b11#2 ++ q.code ++ 0b0001#4) = some 12 ∧
    ∃ t, exec (Instr.pop q) s = .next t ∧
      t.getPair q = wordOf (s.read (s.sp + 1)) (s.read s.sp) ∧
      t.getReg (pairHi q) = s.read (s.sp + 1) ∧ t.getReg (pairLo q) = s.read s.sp ∧
      (q = .af → t.f = s.read s.sp ∧ t.getFlag .z = (s.read s.sp).getLsbD 7 ∧
        t.getFlag .n = (s.read s.sp).getLsbD 6 ∧ t.getFlag .hf = (s.read s.sp).getLsbD 5 ∧
        t.getFlag .cf = (s.read s.sp).getLsbD 4) ∧
      (q ≠ .af → t.f = s.f) ∧
      t.sp = s.sp + 2 ∧ t.pc = s.pc + 1 ∧ t.lcc = Config.cost (0b11#2 ++ q.code ++ 0b0001#4) ∧
      SameRegsExcept [pairHi q, pairLo q] s t ∧
      t.status = s.status ∧ t.fop = s.fop ∧ t.fpc = s.fpc ∧ t.mem = s.mem

/-- R117: a push then a pop, of whichever pairs, restores the word and `sp`, for AF all sixteen bits, at every `sp`; the
pushed bytes stay in memory. -/
def Obligations.PushPopRoundTrip : Prop :=
  ∀ (q q' : Pair) (s : State), Memory.wf s.mem →
    ∃ t u, exec (Instr.push q) s = .next t ∧ exec (Instr.pop q') t = .next u ∧
      u.getPair q' = s.getPair q ∧ u.sp = s.sp ∧ u.mem = t.mem ∧
      u.read (s.sp - 1) = s.getReg (pairHi q) ∧ u.read (s.sp - 2) = s.getReg (pairLo q)

/-- R120: `RST t`, constructors rst00, rst08, rst10, rst18, rst20, rst28, rst30, rst38: the return address `pc + 1` is
pushed as by `PUSH`, then `pc` is 8 times the vector index. -/
def Obligations.FixedVectorCall : Prop :=
  ∀ (ttt : Fin 8) (s : State),
    encode (Instr.rst ttt) = [0b11#2 ++ (BitVec.ofFin ttt : BitVec 3) ++ 0b111#3] ∧
    Config.costRef (0b11#2 ++ (BitVec.ofFin ttt : BitVec 3) ++ 0b111#3) = some 32 ∧
    exec (Instr.rst ttt) s =
      .next { (s.write (s.sp - 2 + 1) (hiByte (s.pc + 1))).write (s.sp - 2) (loByte (s.pc + 1)) with
        sp := s.sp - 2, pc := BitVec.ofNat 16 (8 * ttt.val),
        lcc := Config.cost (0b11#2 ++ (BitVec.ofFin ttt : BitVec 3) ++ 0b111#3) }

/-! Frames: what an instruction leaves unchanged when it answers a next state (00_scope.md R9). -/

/-- R9, R99: the loads into a register (ldBB to ldAA, ldBImm to ldAImm, ldBMemHL to ldAMemHL, ldAMemBC, ldAMemDE) change one
register, `pc` and `lcc`. -/
def Obligations.FrameOfLoadsToRegisters : Prop :=
  ∀ (i : Instr) (dst : OpReg) (s t : State),
    ((∃ src, i = Instr.ldRegReg dst src) ∨ (∃ n, i = Instr.ldRegImm dst n) ∨ i = Instr.ldRegMem dst ∨
      (∃ p, i = Instr.ldAInd p ∧ dst = .a)) →
    exec i s = .next t →
      SameRegsExcept [opReg dst] s t ∧ t.f = s.f ∧ SameControl s t ∧ SameBytesExcept [] s t

/-- R9, R42, R99: the loads to memory (ldMemHLB to ldMemHLA, ldMemHLImm, ldMemBCA, ldMemDEA) change the one byte at the
address their pair holds, `pc` and `lcc`. -/
def Obligations.FrameOfLoadsToMemory : Prop :=
  ∀ (i : Instr) (addr : Pair) (v : Byte) (s t : State), Memory.wf s.mem →
    ((∃ src, i = Instr.ldMemReg src ∧ addr = .hl ∧ v = s.x src) ∨ (i = .ldMemHLImm v ∧ addr = .hl) ∨
      (∃ p, i = Instr.ldIndA p ∧ addr = indPair p ∧ v = s.a)) →
    exec i s = .next t →
      SameRegsExcept [] s t ∧ SameControl s t ∧
      t.read (s.getPair addr) = v ∧ SameBytesExcept [s.getPair addr] s t

/-- R9, R19: `INC r` and `DEC r` (incB to incA, decB to decA) change their register, the flags Z, N and Hf of F, `pc` and
`lcc`. -/
def Obligations.FrameOfIncrementDecrement : Prop :=
  ∀ (i : Instr) (r : OpReg) (s t : State), (i = Instr.inc r ∨ i = Instr.dec r) → exec i s = .next t →
    SameRegsExcept [opReg r, .f] s t ∧ t.f &&& 0x1F = s.f &&& 0x1F ∧ SameControl s t ∧ SameBytesExcept [] s t

/-- R9, R19: `ADD HL,pp` (addHLBC, addHLDE, addHLHL) changes H, L, the flags N, Hf and Cf of F, `pc` and `lcc`. -/
def Obligations.FrameOfAdd16 : Prop :=
  ∀ (p : AddPair) (s t : State), exec (Instr.addHL p) s = .next t →
    SameRegsExcept [.h, .l, .f] s t ∧ t.f &&& 0x8F = s.f &&& 0x8F ∧ SameControl s t ∧ SameBytesExcept [] s t

/-- R9, R81, R110, R111: nop, jp and jr change `pc` and `lcc` and nothing else. -/
def Obligations.FrameOfNopAndJumps : Prop :=
  ∀ (i : Instr) (s t : State), (i = .nop ∨ (∃ nn, i = .jp nn) ∨ ∃ e, i = .jr e) → exec i s = .next t →
    SameRegsExcept [] s t ∧ SameControl s t ∧ SameBytesExcept [] s t

/-- R9, R115, R120: pushBC, pushDE, pushHL, pushAF and rst00 to rst38 change `sp`, the two bytes below the old `sp`, `pc` and
`lcc`. -/
def Obligations.FrameOfPushAndCall : Prop :=
  ∀ (i : Instr) (w : Word) (s t : State), Memory.wf s.mem →
    ((∃ q, i = Instr.push q ∧ w = s.getPair q) ∨ ∃ ttt, i = Instr.rst ttt ∧ w = s.pc + 1) →
    exec i s = .next t →
      SameRegsExcept [] s t ∧ t.sp = s.sp - 2 ∧ t.status = s.status ∧ t.fop = s.fop ∧ t.fpc = s.fpc ∧
      t.read (s.sp - 1) = hiByte w ∧ t.read (s.sp - 2) = loByte w ∧
      SameBytesExcept [s.sp - 1, s.sp - 2] s t

/-- R9, R116: popBC, popDE, popHL, popAF change their two registers, `sp`, `pc` and `lcc`. -/
def Obligations.FrameOfPop : Prop :=
  ∀ (q : Pair) (s t : State), exec (Instr.pop q) s = .next t →
    SameRegsExcept [pairHi q, pairLo q] s t ∧ t.sp = s.sp + 2 ∧
    t.status = s.status ∧ t.fop = s.fop ∧ t.fpc = s.fpc ∧ SameBytesExcept [] s t

/-! Rules about the whole machine. -/

/-- R54: an instruction changes no byte but those the table lists for it, and a byte it neither reads nor writes as data has
no part in what it does: the same instruction with that byte changed does the same and leaves the changed byte. -/
def Obligations.OnlyListedBytesMatter : Prop :=
  ∀ (i : Instr) (s : State) (addr : Word) (v : Byte), Memory.wf s.mem →
    addr ∉ dataReads i s → addr ∉ dataWrites i s →
    ∃ t, exec i s = .next t ∧ t.read addr = s.read addr ∧ exec i (s.write addr v) = .next (t.write addr v)

/-- R19: no instruction's result or control flow depends on F, but that `PUSH AF` stores it. -/
def Obligations.FlagsNeverSteer : Prop :=
  ∀ (i : Instr) (s : State) (v : Byte), i ≠ .pushAF →
    ∃ t, exec i s = .next t ∧ ∃ w, exec i { s with f := v } = .next { t with f := w }

/-- R19: every instruction but INC, DEC, ADD and `POP AF` leaves all of F as it was. -/
def Obligations.OnlyFlagInstructionsWriteF : Prop :=
  ∀ (i : Instr) (s : State), (∀ r, i ≠ Instr.inc r) → (∀ r, i ≠ Instr.dec r) → (∀ p, i ≠ Instr.addHL p) → i ≠ .popAF →
    ∃ t, exec i s = .next t ∧ t.f = s.f

/-- R23: every instruction but PUSH, POP and RST leaves `sp` as it was. -/
def Obligations.OnlyStackInstructionsWriteSP : Prop :=
  ∀ (i : Instr) (s : State), (∀ q, i ≠ Instr.push q) → (∀ q, i ≠ Instr.pop q) → (∀ ttt, i ≠ Instr.rst ttt) →
    ∃ t, exec i s = .next t ∧ t.sp = s.sp

/-- R21: every implemented instruction but JP, JR and RST moves `pc` past its own bytes, modulo 65536. -/
def Obligations.StraightLineAdvance : Prop :=
  ∀ (i : Instr) (s : State), (∀ nn, i ≠ .jp nn) → (∀ e, i ≠ .jr e) → (∀ ttt, i ≠ Instr.rst ttt) →
    (∀ op, i ≠ .unimplemented op) →
    ∃ t, exec i s = .next t ∧ t.pc = s.pc + BitVec.ofNat 16 (encode i).length

/-- R25, R26, R142: `status`, `fop`, `fpc` and `lcc` are beyond every implemented instruction's reach: it neither reads nor
writes the first three, and what it leaves in `lcc` does not depend on what was there. -/
def Obligations.ControlRegistersUnreachable : Prop :=
  ∀ (i : Instr) (s : State) (status : Status) (fop : Byte) (fpc : Word) (lcc : Byte), (∀ op, i ≠ .unimplemented op) →
    ∃ t, exec i s = .next t ∧
      t.status = s.status ∧ t.fop = s.fop ∧ t.fpc = s.fpc ∧ t.lcc = Config.cost i.opcode ∧
      exec i { s with status := status, fop := fop, fpc := fpc, lcc := lcc } =
        .next { t with status := status, fop := fop, fpc := fpc }

/-- R53: a store is seen by the very next fetch: `LD (HL),r` (ldMemHLB to ldMemHLA) onto the byte after itself makes the next
step execute the stored byte, as NOP or whatever one-byte instruction it encodes. -/
def Obligations.StoreIsSeenByNextFetch : Prop :=
  ∀ (src : OpReg) (s : State) (i : Instr), Memory.wf s.mem → s.status = .running →
    s.getPair .hl = s.pc + 1 → decodeEntry (s.x src) = .bare i →
    ∃ t, exec (Instr.ldMemReg src) s = .next t ∧ t.read t.pc = s.x src ∧ step t = exec i t

/-! Registers and memory. -/

/-- R12: a register holds what was written to it, for each of the eight; no other register, and nothing else, changes. -/
def Obligations.RegisterWriteReadsBack : Prop :=
  ∀ (s : State) (r : Reg) (v : Byte),
    (s.setReg r v).getReg r = v ∧ SameRegsExcept [r] s (s.setReg r v) ∧
    (s.setReg r v).pc = s.pc ∧ (s.setReg r v).lcc = s.lcc ∧ SameControl s (s.setReg r v) ∧
    (s.setReg r v).mem = s.mem

/-- R13, R15: a pair is its two registers, high one first: after `setPair` both halves hold the word's bytes, for AF too;
no other register changes. -/
def Obligations.PairWriteReadsBack : Prop :=
  ∀ (s : State) (p : Pair) (w : Word),
    (s.setPair p w).getPair p = w ∧
    ((s.setPair p w).getReg (pairHi p)).toNat = w.toNat / 256 ∧
    ((s.setPair p w).getReg (pairLo p)).toNat = w.toNat % 256 ∧
    (s.getPair p).toNat = (s.getReg (pairHi p)).toNat * 256 + (s.getReg (pairLo p)).toNat ∧
    SameRegsExcept [pairHi p, pairLo p] s (s.setPair p w)

/-- R17: `getFlag` reads the flag's bit of F, and `setFlag` sets or clears only that bit, by the masks of R17, leaving the
other three flags and the unused bits untouched. -/
def Obligations.FlagWriteTouchesOneBit : Prop :=
  ∀ (s : State) (fl : Flag) (b : Bool),
    s.getFlag .z = s.f.getLsbD 7 ∧ s.getFlag .n = s.f.getLsbD 6 ∧ s.getFlag .hf = s.f.getLsbD 5 ∧
    s.getFlag .cf = s.f.getLsbD 4 ∧
    (s.setFlag .z b).f = s.f &&& ~~~0x80#8 ||| (BitVec.ofBool b).setWidth 8 <<< 7 ∧
    (s.setFlag .n b).f = s.f &&& ~~~0x40#8 ||| (BitVec.ofBool b).setWidth 8 <<< 6 ∧
    (s.setFlag .hf b).f = s.f &&& ~~~0x20#8 ||| (BitVec.ofBool b).setWidth 8 <<< 5 ∧
    (s.setFlag .cf b).f = s.f &&& ~~~0x10#8 ||| (BitVec.ofBool b).setWidth 8 <<< 4 ∧
    (s.setFlag fl b).getFlag fl = b ∧
    (∀ fl', fl' ≠ fl → (s.setFlag fl b).getFlag fl' = s.getFlag fl') ∧
    (s.setFlag fl b).f &&& 0x0F = s.f &&& 0x0F ∧ (s.setFlag fl b) = { s with f := (s.setFlag fl b).f }

/-- R42: a byte written is read back, every other cell is unchanged, and the memory keeps its canonical form (which is the
model's). -/
def Obligations.MemoryWriteReadsBack : Prop :=
  ∀ (s : State) (addr : Word) (v : Byte), Memory.wf s.mem →
    (s.write addr v).read addr = v ∧ SameBytesExcept [addr] s (s.write addr v) ∧ Memory.wf (s.write addr v).mem

/-- The model's canonical form: two memories in it that read alike at every address are equal as data. -/
def Obligations.EqualMemoriesAreEqualData : Prop :=
  ∀ s t : State, Memory.wf s.mem → Memory.wf t.mem → (∀ addr : Word, s.read addr = t.read addr) → s.mem = t.mem

/-! Reset, launch and the invariant. -/

/-- R30, R150, and for their form log 2: Reset with any register values and any image of at most 65536 bytes, served in any
state, gives the state of the table of R30. -/
def Obligations.LaunchState : Prop :=
  ∀ (s : State) (r : Config.ResetValues) (image : List Byte), image.length ≤ 65536 →
    ∃ t, serve (.reset r image) s = .next t ∧
      t.a = r.a ∧ t.b = r.b ∧ t.c = r.c ∧ t.d = r.d ∧ t.e = r.e ∧ t.h = r.h ∧ t.l = r.l ∧ t.f = r.f ∧
      t.pc = r.pc ∧ t.sp = r.sp ∧ t.lcc = 0 ∧ t.status = .running ∧ t.fop = 0 ∧ t.fpc = 0 ∧
      ∀ addr : Word, t.read addr = image.getD addr.toNat 0x00

/-- R151 and log 7: an image longer than 65536 bytes is refused, in every state. -/
def Obligations.LongImageIsRefused : Prop :=
  ∀ (s : State) (r : Config.ResetValues) (image : List Byte), image.length > 65536 →
    serve (.reset r image) s = .refused .imageTooLong

/-- R29, R132: every step keeps the invariant. -/
def Obligations.StepKeepsInvariant : Prop :=
  ∀ s t : State, Inv s → step s = .next t → Inv t

/-- R29, R30: the invariant holds at `State.reset`, whose register values and empty image are the model's choice (log 1,
log 2). -/
def Obligations.ResetMeetsInvariant : Prop := Inv State.reset

/-- R29, R150: the invariant holds after every launch. -/
def Obligations.LaunchMeetsInvariant : Prop :=
  ∀ (r : Config.ResetValues) (image : List Byte) (t : State), launch r image = .next t → Inv t
end

