-- ==== Sys2Proof/Laws/Bits.lean ====
section
/-! SUPPORT. Words and their bytes, the flag bits, and what the flag computations come to. -/

namespace Sys2Proof

@[simp] theorem hiByte_wordOf (hi lo : Byte) : hiByte (wordOf hi lo) = hi := by
  ext i h
  simp [hiByte, wordOf, h, show 8 + i < 16 by omega]

@[simp] theorem loByte_wordOf (hi lo : Byte) : loByte (wordOf hi lo) = lo := by
  ext i h
  simp [loByte, wordOf]

@[simp] theorem wordOf_hiByte_loByte (w : Word) : wordOf (hiByte w) (loByte w) = w := by
  ext i h
  by_cases h8 : i < 8
  · simp [hiByte, loByte, wordOf, h8, BitVec.getLsbD_eq_getElem h]
  · simp [hiByte, loByte, wordOf, h8, show 8 + (i - 8) = i by omega, show i - 8 < 8 by omega, BitVec.getLsbD_eq_getElem h]

/-- The pair view as a number: `high * 256 + low` (10_state.md R13). -/
theorem toNat_wordOf (hi lo : Byte) : (wordOf hi lo).toNat = hi.toNat * 256 + lo.toNat := by
  have hh := hi.isLt
  have hl := lo.isLt
  have hs : hi.toNat <<< 8 = hi.toNat * 256 := Nat.shiftLeft_eq _ _
  simp only [wordOf, BitVec.toNat_or, BitVec.toNat_shiftLeft, BitVec.truncate_eq_setWidth, BitVec.toNat_setWidth]
  rw [Nat.mod_eq_of_lt (a := hi.toNat) (by omega), Nat.mod_eq_of_lt (a := lo.toNat) (by omega),
    Nat.mod_eq_of_lt (by omega), ← Nat.shiftLeft_add_eq_or_of_lt hl, hs]

/-- The implemented bytes and the table agree: a byte outside the 111 has no entry of its own (30_encoding.md R68). -/
theorem decodeEntry_of_not_implemented {op : Byte} (h : implemented op = false) :
    decodeEntry op = .bare (.unimplemented op) := by
  unfold decodeEntry
  split <;> first | rfl | exact absurd h (by decide)

namespace Machine

@[simp] theorem incResult_eq (v : Byte) : incResult v = v + 1 := by
  apply BitVec.eq_of_toNat_eq
  simp [incResult]

@[simp] theorem decResult_eq (v : Byte) : decResult v = v - 1 := by
  revert v
  decide +kernel

/-- HalfCarry of an increment is the carry out of bit 3 (42_incdec8.md R100). -/
theorem incHalfCarry_iff (v : Byte) : incHalfCarry v = true ↔ v &&& 0x0F#8 = 0x0F := by
  revert v
  decide +kernel

/-- HalfCarry of a decrement is the borrow out of bit 4 (42_incdec8.md R101). -/
theorem decHalfCarry_iff (v : Byte) : decHalfCarry v = true ↔ v &&& 0x0F#8 = 0 := by
  revert v
  decide +kernel

@[simp] theorem sum_eq (a b : Word) : BitVec.ofNat 16 (addSum a b) = a + b := by
  apply BitVec.eq_of_toNat_eq
  simp [addSum]

/-- A flag put into F is seen by its own bit and by no other flag's (10_state.md R17). -/
theorem getLsbD_putFlag (f : Byte) (fl fl' : Flag) (b : Bool) :
    (putFlag f fl b).getLsbD (flagBit fl') = if fl' = fl then b else f.getLsbD (flagBit fl') := by
  cases fl <;> cases fl' <;> cases b <;> simp [putFlag, flagMask, flagBit]

/-- A flag put into F keeps the four unused bits (10_state.md R17, R18). -/
theorem unused_putFlag (f : Byte) (fl : Flag) (b : Bool) : putFlag f fl b &&& 0x0F#8 = f &&& 0x0F#8 := by
  cases fl <;> cases b <;> revert f <;> decide +kernel

/-- A flag write is seen by the flag it names and by no other (10_state.md R17). -/
theorem State.getFlag_setFlag (s : State) (fl fl' : Flag) (b : Bool) :
    (s.setFlag fl b).getFlag fl' = if fl' = fl then b else s.getFlag fl' := getLsbD_putFlag s.f fl fl' b

/-- The flags after an increment of `v` (10_state.md R19, 42_incdec8.md R100). -/
theorem State.getFlag_incFlags (s : State) (v : Byte) (fl : Flag) :
    (s.incFlags v).getFlag fl =
      match fl with
      | .z => decide (v + 1 = 0) | .n => false | .hf => incHalfCarry v | .cf => s.getFlag .cf := by
  cases fl <;> simp [State.incFlags, incF, State.getFlag, getLsbD_putFlag]

/-- The flags after a decrement of `v` (10_state.md R19, 42_incdec8.md R101). -/
theorem State.getFlag_decFlags (s : State) (v : Byte) (fl : Flag) :
    (s.decFlags v).getFlag fl =
      match fl with
      | .z => decide (v - 1 = 0) | .n => true | .hf => decHalfCarry v | .cf => s.getFlag .cf := by
  cases fl <;> simp [State.decFlags, decF, State.getFlag, getLsbD_putFlag]

/-- The flags after a 16-bit add (10_state.md R19, 43_add16.md R105). -/
theorem State.getFlag_addFlags (s : State) (a b : Word) (fl : Flag) :
    (s.addFlags a b).getFlag fl =
      match fl with
      | .z => s.getFlag .z | .n => false | .hf => addHalfCarry a b | .cf => addCarry a b := by
  cases fl <;> simp [State.addFlags, addF, State.getFlag, getLsbD_putFlag]

theorem unused_incF (f v : Byte) : incF f v &&& 0x0F#8 = f &&& 0x0F#8 := by simp only [incF, unused_putFlag]

theorem unused_decF (f v : Byte) : decF f v &&& 0x0F#8 = f &&& 0x0F#8 := by simp only [decF, unused_putFlag]

theorem unused_addF (f : Byte) (a b : Word) : addF f a b &&& 0x0F#8 = f &&& 0x0F#8 := by simp only [addF, unused_putFlag]

end Machine

end Sys2Proof
end

