-- ==== Sys2Proof/Laws/Families.lean ====
section
/-! SUPPORT. What each instruction is, family by family: the meaning of a whole family as one equation, and the case
principle that turns a claim about the 112 constructors into one case per family. -/

namespace Sys2Proof

/-- To show something of every instruction, show it of every family of 30_encoding.md R66 and of the unimplemented
bytes. -/
theorem Instr.byFamily {P : Instr → Prop} (nop : P .nop) (ldRegReg : ∀ dst src, P (Instr.ldRegReg dst src))
    (ldRegImm : ∀ dst n, P (Instr.ldRegImm dst n)) (ldRegMem : ∀ dst, P (Instr.ldRegMem dst))
    (ldMemReg : ∀ r, P (Instr.ldMemReg r)) (ldMemImm : ∀ n, P (.ldMemHLImm n)) (ldAInd : ∀ p, P (Instr.ldAInd p))
    (ldIndA : ∀ p, P (Instr.ldIndA p)) (inc : ∀ r, P (Instr.inc r)) (dec : ∀ r, P (Instr.dec r))
    (addHL : ∀ p, P (Instr.addHL p)) (jp : ∀ nn, P (.jp nn)) (jr : ∀ e, P (.jr e)) (push : ∀ q, P (Instr.push q))
    (pop : ∀ q, P (Instr.pop q)) (rst : ∀ ttt, P (Instr.rst ttt)) (unimplemented : ∀ op, P (.unimplemented op)) :
    ∀ i, P i
  | .nop => nop
  | .ldBB => ldRegReg .b .b
  | .ldBC => ldRegReg .b .c
  | .ldBD => ldRegReg .b .d
  | .ldBE => ldRegReg .b .e
  | .ldBH => ldRegReg .b .h
  | .ldBL => ldRegReg .b .l
  | .ldBA => ldRegReg .b .a
  | .ldCB => ldRegReg .c .b
  | .ldCC => ldRegReg .c .c
  | .ldCD => ldRegReg .c .d
  | .ldCE => ldRegReg .c .e
  | .ldCH => ldRegReg .c .h
  | .ldCL => ldRegReg .c .l
  | .ldCA => ldRegReg .c .a
  | .ldDB => ldRegReg .d .b
  | .ldDC => ldRegReg .d .c
  | .ldDD => ldRegReg .d .d
  | .ldDE => ldRegReg .d .e
  | .ldDH => ldRegReg .d .h
  | .ldDL => ldRegReg .d .l
  | .ldDA => ldRegReg .d .a
  | .ldEB => ldRegReg .e .b
  | .ldEC => ldRegReg .e .c
  | .ldED => ldRegReg .e .d
  | .ldEE => ldRegReg .e .e
  | .ldEH => ldRegReg .e .h
  | .ldEL => ldRegReg .e .l
  | .ldEA => ldRegReg .e .a
  | .ldHB => ldRegReg .h .b
  | .ldHC => ldRegReg .h .c
  | .ldHD => ldRegReg .h .d
  | .ldHE => ldRegReg .h .e
  | .ldHH => ldRegReg .h .h
  | .ldHL => ldRegReg .h .l
  | .ldHA => ldRegReg .h .a
  | .ldLB => ldRegReg .l .b
  | .ldLC => ldRegReg .l .c
  | .ldLD => ldRegReg .l .d
  | .ldLE => ldRegReg .l .e
  | .ldLH => ldRegReg .l .h
  | .ldLL => ldRegReg .l .l
  | .ldLA => ldRegReg .l .a
  | .ldAB => ldRegReg .a .b
  | .ldAC => ldRegReg .a .c
  | .ldAD => ldRegReg .a .d
  | .ldAE => ldRegReg .a .e
  | .ldAH => ldRegReg .a .h
  | .ldAL => ldRegReg .a .l
  | .ldAA => ldRegReg .a .a
  | .ldBImm n => ldRegImm .b n
  | .ldCImm n => ldRegImm .c n
  | .ldDImm n => ldRegImm .d n
  | .ldEImm n => ldRegImm .e n
  | .ldHImm n => ldRegImm .h n
  | .ldLImm n => ldRegImm .l n
  | .ldAImm n => ldRegImm .a n
  | .ldBMemHL => ldRegMem .b
  | .ldCMemHL => ldRegMem .c
  | .ldDMemHL => ldRegMem .d
  | .ldEMemHL => ldRegMem .e
  | .ldHMemHL => ldRegMem .h
  | .ldLMemHL => ldRegMem .l
  | .ldAMemHL => ldRegMem .a
  | .ldMemHLB => ldMemReg .b
  | .ldMemHLC => ldMemReg .c
  | .ldMemHLD => ldMemReg .d
  | .ldMemHLE => ldMemReg .e
  | .ldMemHLH => ldMemReg .h
  | .ldMemHLL => ldMemReg .l
  | .ldMemHLA => ldMemReg .a
  | .ldMemHLImm n => ldMemImm n
  | .ldAMemBC => ldAInd .bc
  | .ldAMemDE => ldAInd .de
  | .ldMemBCA => ldIndA .bc
  | .ldMemDEA => ldIndA .de
  | .incB => inc .b
  | .incC => inc .c
  | .incD => inc .d
  | .incE => inc .e
  | .incH => inc .h
  | .incL => inc .l
  | .incA => inc .a
  | .decB => dec .b
  | .decC => dec .c
  | .decD => dec .d
  | .decE => dec .e
  | .decH => dec .h
  | .decL => dec .l
  | .decA => dec .a
  | .addHLBC => addHL .bc
  | .addHLDE => addHL .de
  | .addHLHL => addHL .hl
  | .jp nn => jp nn
  | .jr e => jr e
  | .pushBC => push .bc
  | .pushDE => push .de
  | .pushHL => push .hl
  | .pushAF => push .af
  | .popBC => pop .bc
  | .popDE => pop .de
  | .popHL => pop .hl
  | .popAF => pop .af
  | .rst00 => rst 0
  | .rst08 => rst 1
  | .rst10 => rst 2
  | .rst18 => rst 3
  | .rst20 => rst 4
  | .rst28 => rst 5
  | .rst30 => rst 6
  | .rst38 => rst 7
  | .unimplemented op => unimplemented op

namespace Machine

/-! The meaning of each family (the arms of `exec`). -/

theorem exec_nop (s : State) : exec .nop s = straight 0x00 0 s := rfl

theorem exec_ldRegReg (dst src : OpReg) (s : State) :
    exec (Instr.ldRegReg dst src) s = loadRegReg (Instr.ldRegReg dst src).opcode dst src s := by
  cases dst <;> cases src <;> rfl

theorem exec_ldRegImm (dst : OpReg) (n : Byte) (s : State) :
    exec (Instr.ldRegImm dst n) s = loadRegImm (Instr.ldRegImm dst n).opcode dst n s := by cases dst <;> rfl

theorem exec_ldRegMem (dst : OpReg) (s : State) :
    exec (Instr.ldRegMem dst) s = loadRegMem (Instr.ldRegMem dst).opcode dst .hl s := by cases dst <;> rfl

theorem exec_ldMemReg (r : OpReg) (s : State) :
    exec (Instr.ldMemReg r) s = storeReg (Instr.ldMemReg r).opcode .hl r s := by cases r <;> rfl

theorem exec_ldMemImm (n : Byte) (s : State) : exec (.ldMemHLImm n) s = storeImm 0x36 .hl n s := rfl

theorem exec_ldAInd (p : IndPair) (s : State) :
    exec (Instr.ldAInd p) s = loadRegMem (Instr.ldAInd p).opcode .a (indPair p) s := by cases p <;> rfl

theorem exec_ldIndA (p : IndPair) (s : State) :
    exec (Instr.ldIndA p) s = storeReg (Instr.ldIndA p).opcode (indPair p) .a s := by cases p <;> rfl

theorem exec_inc (r : OpReg) (s : State) : exec (Instr.inc r) s = incReg (Instr.inc r).opcode r s := by
  cases r <;> rfl

theorem exec_dec (r : OpReg) (s : State) : exec (Instr.dec r) s = decReg (Instr.dec r).opcode r s := by
  cases r <;> rfl

theorem exec_addHL (p : AddPair) (s : State) : exec (Instr.addHL p) s = addToHL (Instr.addHL p).opcode p s := by
  cases p <;> rfl

theorem exec_jp (nn : Word) (s : State) : exec (.jp nn) s = redirect 0xC3 nn s := rfl

theorem exec_jr (e : Byte) (s : State) : exec (.jr e) s = redirect 0x18 (relativeTarget s.pc e) s := rfl

theorem exec_push (q : Pair) (s : State) : exec (Instr.push q) s = pushPair (Instr.push q).opcode q s := by
  cases q <;> rfl

theorem exec_pop (q : Pair) (s : State) : exec (Instr.pop q) s = popPair (Instr.pop q).opcode q s := by
  cases q <;> rfl

theorem exec_rst (ttt : Fin 8) (s : State) :
    exec (Instr.rst ttt) s = restart (Instr.rst ttt).opcode (BitVec.ofFin ttt) s := by
  match ttt with
  | 0 | 1 | 2 | 3 | 4 | 5 | 6 | 7 => rfl

theorem exec_unimplemented (op : Byte) (s : State) :
    exec (.unimplemented op) s = .next (s.raiseUnimplementedOpcode op s.pc) := rfl

end Machine

end Sys2Proof
end

