-- ==== Sys2Proof/Laws/Memory.lean ====
section
/-! SUPPORT. The laws of the memory image: a write keeps the canonical form, a read after a write, and equal contents are
equal data. -/

namespace Sys2Proof.Machine

theorem Memory.wf_nil : Memory.wf [] := by simp [Memory.wf]

theorem Memory.wf_tail {cell : Host.Cell} {m : Memory} (h : Memory.wf (cell :: m)) : Memory.wf m :=
  ⟨(List.pairwise_cons.mp h.1).2, fun c hc => h.2 c (List.mem_cons_of_mem _ hc)⟩

theorem Memory.wf_cons {k : Nat} {v : Byte} {m : Memory} :
    Memory.wf ((k, v) :: m) ↔
      (∀ cell ∈ m, k < cell.1) ∧ (k < 65536 ∧ v ≠ Memory.unlisted) ∧ Memory.wf m := by
  simp only [Memory.wf, List.pairwise_cons, List.forall_mem_cons]
  tauto

/-- Below every listed address, memory reads as unlisted. -/
theorem Memory.read_below {m : Memory} {addr : Nat} (h : ∀ cell ∈ m, addr < cell.1) :
    Memory.read m addr = Memory.unlisted := by
  induction m with
  | nil => rfl
  | cons cell m ih =>
    have hk : ¬ cell.1 = addr := by have := h cell (by simp); omega
    simpa [Memory.read, hk] using ih fun c hc => h c (List.mem_cons_of_mem _ hc)

/-- Every address listed after a write is the written one or was listed before. -/
theorem Memory.mem_write {m : Memory} {addr : Nat} {v : Byte} {cell : Host.Cell}
    (h : cell ∈ Memory.write m addr v) : cell ∈ m ∨ (cell = (addr, v) ∧ v ≠ Memory.unlisted) := by
  induction m with
  | nil =>
    simp only [Memory.write] at h
    split at h <;> simp_all
  | cons c m ih =>
    simp only [Memory.write] at h
    split at h
    · split at h
      · exact .inl h
      · rcases List.mem_cons.mp h with h | h
        · exact .inr ⟨h, ‹_›⟩
        · exact .inl h
    · split at h
      · split at h
        · exact .inl (List.mem_cons_of_mem _ h)
        · rcases List.mem_cons.mp h with h | h
          · exact .inr ⟨h, ‹_›⟩
          · exact .inl (List.mem_cons_of_mem _ h)
      · rcases List.mem_cons.mp h with h | h
        · exact .inl (h ▸ List.mem_cons_self)
        · exact (ih h).imp_left (List.mem_cons_of_mem _)

/-- A write inside the 65536 cells keeps the canonical form. -/
theorem Memory.wf_write {m : Memory} {addr : Nat} {v : Byte} (h : Memory.wf m) (ha : addr < 65536) :
    Memory.wf (Memory.write m addr v) := by
  induction m with
  | nil =>
    simp only [Memory.write]
    split
    · exact h
    · exact Memory.wf_cons.mpr ⟨by simp, ⟨ha, ‹_›⟩, h⟩
  | cons c m ih =>
    obtain ⟨k, w⟩ := c
    have hc := Memory.wf_cons.mp h
    simp only [Memory.write]
    split
    · split
      · exact h
      · refine Memory.wf_cons.mpr ⟨fun cell hcell => ?_, ⟨ha, ‹_›⟩, h⟩
        rcases List.mem_cons.mp hcell with rfl | hcell
        · assumption
        · have := hc.1 cell hcell
          omega
    · split
      · split
        · exact hc.2.2
        · exact Memory.wf_cons.mpr ⟨fun cell hcell => by have := hc.1 cell hcell; omega, ⟨ha, ‹_›⟩, hc.2.2⟩
      · refine Memory.wf_cons.mpr ⟨fun cell hcell => ?_, hc.2.1, ih hc.2.2⟩
        rcases Memory.mem_write hcell with hcell | ⟨rfl, -⟩
        · exact hc.1 cell hcell
        · show k < addr
          omega

/-- A write is read back. -/
theorem Memory.read_write_same {m : Memory} {addr : Nat} {v : Byte} (h : Memory.wf m) :
    Memory.read (Memory.write m addr v) addr = v := by
  induction m with
  | nil =>
    simp only [Memory.write]
    split <;> simp_all [Memory.read]
  | cons c m ih =>
    obtain ⟨k, w⟩ := c
    have hc := Memory.wf_cons.mp h
    simp only [Memory.write]
    split
    · split
      · rw [Memory.read_below, ‹v = _›]
        intro cell hcell
        rcases List.mem_cons.mp hcell with rfl | hcell
        · assumption
        · have := hc.1 cell hcell
          omega
      · simp [Memory.read]
    · split
      · split
        · rw [Memory.read_below, ‹v = _›]
          intro cell hcell
          have := hc.1 cell hcell
          omega
        · simp [Memory.read]
      · simp [Memory.read, Ne.symm ‹¬ addr = k›, ih hc.2.2]

/-- A write leaves every other address alone. -/
theorem Memory.read_write_other {m : Memory} {addr addr' : Nat} {v : Byte} (h : Memory.wf m) (hne : addr' ≠ addr) :
    Memory.read (Memory.write m addr v) addr' = Memory.read m addr' := by
  induction m with
  | nil =>
    simp only [Memory.write]
    split <;> simp [Memory.read, Ne.symm hne]
  | cons c m ih =>
    obtain ⟨k, w⟩ := c
    have hc := Memory.wf_cons.mp h
    simp only [Memory.write]
    split
    · split
      · rfl
      · simp [Memory.read, Ne.symm hne]
    · split
      · subst ‹addr = k›
        split <;> simp [Memory.read, Ne.symm hne]
      · simp only [Memory.read, ih hc.2.2]

/-- A listed cell is what its address reads as. -/
theorem Memory.read_of_mem {m : Memory} {cell : Host.Cell} (h : Memory.wf m) (hc : cell ∈ m) :
    Memory.read m cell.1 = cell.2 := by
  induction m with
  | nil => cases hc
  | cons c m ih =>
    obtain ⟨k, w⟩ := c
    have hw := Memory.wf_cons.mp h
    rcases List.mem_cons.mp hc with rfl | hc
    · simp [Memory.read]
    · have := hw.1 cell hc
      have hne : ¬ k = cell.1 := by omega
      simp only [Memory.read, hne, ↓reduceIte]
      exact ih hw.2.2 hc

/-- Canonical memories that read alike at every one of the 65536 addresses are equal. -/
theorem Memory.eq_of_read_eq {m m' : Memory} (h : Memory.wf m) (h' : Memory.wf m')
    (heq : ∀ addr < 65536, Memory.read m addr = Memory.read m' addr) : m = m' := by
  induction m generalizing m' with
  | nil =>
    cases m' with
    | nil => rfl
    | cons c' m' =>
      obtain ⟨k', v'⟩ := c'
      have hw := Memory.wf_cons.mp h'
      have := heq k' hw.2.1.1
      exact absurd (by simpa [Memory.read] using this.symm) hw.2.1.2
  | cons c m ih =>
    obtain ⟨k, v⟩ := c
    have hw := Memory.wf_cons.mp h
    cases m' with
    | nil =>
      have := heq k hw.2.1.1
      exact absurd (by simpa [Memory.read] using this) hw.2.1.2
    | cons c' m' =>
      obtain ⟨k', v'⟩ := c'
      have hw' := Memory.wf_cons.mp h'
      have hk : k = k' := by
        rcases Nat.lt_trichotomy k k' with hlt | heqk | hlt
        · have e := heq k hw.2.1.1
          rw [Memory.read_below (m := (k', v') :: m')] at e
          · exact absurd (by simpa [Memory.read] using e) hw.2.1.2
          · intro cell hcell
            rcases List.mem_cons.mp hcell with rfl | hcell
            · exact hlt
            · have := hw'.1 cell hcell
              omega
        · exact heqk
        · have e := heq k' hw'.2.1.1
          rw [Memory.read_below (m := (k, v) :: m)] at e
          · exact absurd (by simpa [Memory.read] using e.symm) hw'.2.1.2
          · intro cell hcell
            rcases List.mem_cons.mp hcell with rfl | hcell
            · exact hlt
            · have := hw.1 cell hcell
              omega
      subst hk
      have hv : v = v' := by simpa [Memory.read] using heq k hw.2.1.1
      subst hv
      refine congrArg _ (ih hw.2.2 hw'.2.2 fun addr ha => ?_)
      by_cases hka : k = addr
      · subst hka
        rw [Memory.read_below hw.1, Memory.read_below hw'.1]
      · simpa [Memory.read, hka] using heq addr ha

/-- Writes at different addresses commute. -/
theorem Memory.write_comm {m : Memory} {addr addr' : Nat} {v v' : Byte} (h : Memory.wf m) (ha : addr < 65536)
    (ha' : addr' < 65536) (hne : addr ≠ addr') :
    Memory.write (Memory.write m addr v) addr' v' = Memory.write (Memory.write m addr' v') addr v := by
  have h1 := Memory.wf_write (v := v) h ha
  have h2 := Memory.wf_write (v := v') h ha'
  refine Memory.eq_of_read_eq (Memory.wf_write h1 ha') (Memory.wf_write h2 ha) fun x _ => ?_
  by_cases hx : x = addr
  · subst hx
    rw [Memory.read_write_other h1 hne, Memory.read_write_same h, Memory.read_write_same h2]
  · rw [Memory.read_write_other h2 hx]
    by_cases hx' : x = addr'
    · subst hx'
      rw [Memory.read_write_same h1, Memory.read_write_same h]
    · rw [Memory.read_write_other h1 hx', Memory.read_write_other h hx, Memory.read_write_other h hx']

/-! The same laws for the state's reads and writes. -/

/-- `State.write` keeps the canonical form. -/
theorem State.wf_write {s : State} {addr : Word} {v : Byte} (h : Memory.wf s.mem) : Memory.wf (s.write addr v).mem :=
  Memory.wf_write h addr.isLt

theorem State.read_write_same {s : State} {addr : Word} {v : Byte} (h : Memory.wf s.mem) :
    (s.write addr v).read addr = v :=
  Memory.read_write_same h

theorem State.read_write_other {s : State} {addr addr' : Word} {v : Byte} (h : Memory.wf s.mem) (hne : addr' ≠ addr) :
    (s.write addr v).read addr' = s.read addr' :=
  Memory.read_write_other h fun e => hne (BitVec.eq_of_toNat_eq e)

theorem State.write_comm {s : State} {addr addr' : Word} {v v' : Byte} (h : Memory.wf s.mem) (hne : addr ≠ addr') :
    (s.write addr v).write addr' v' = (s.write addr' v').write addr v := by
  simp only [State.write]
  rw [Memory.write_comm h addr.isLt addr'.isLt fun e => hne (BitVec.eq_of_toNat_eq e)]

/-- The memory of the reset state is canonical. -/
theorem State.wf_initial (r : Config.ResetValues) : Memory.wf (State.initial r).mem := Memory.wf_nil

theorem State.wf_reset : Memory.wf State.reset.mem := State.wf_initial _

/-- Storing a list of bytes keeps the canonical form. -/
theorem State.wf_writeBytes {s : State} {addr : Word} {bytes : List Byte} (h : Memory.wf s.mem) :
    Memory.wf (s.writeBytes addr bytes).mem := by
  induction bytes generalizing s addr with
  | nil => exact h
  | cons v rest ih => exact ih (State.wf_write h)

end Sys2Proof.Machine
end

