-- ==== Sys2Proof/Laws/State.lean ====
section
/-! SUPPORT. One lemma per field per update of the state, and the named reads after each update. -/

namespace Sys2Proof.Machine

variable (s : State)

/-! `write`. -/

@[simp] theorem State.write_a (addr : Word) (v : Byte) : (s.write addr v).a = s.a := rfl
@[simp] theorem State.write_b (addr : Word) (v : Byte) : (s.write addr v).b = s.b := rfl
@[simp] theorem State.write_c (addr : Word) (v : Byte) : (s.write addr v).c = s.c := rfl
@[simp] theorem State.write_d (addr : Word) (v : Byte) : (s.write addr v).d = s.d := rfl
@[simp] theorem State.write_e (addr : Word) (v : Byte) : (s.write addr v).e = s.e := rfl
@[simp] theorem State.write_h (addr : Word) (v : Byte) : (s.write addr v).h = s.h := rfl
@[simp] theorem State.write_l (addr : Word) (v : Byte) : (s.write addr v).l = s.l := rfl
@[simp] theorem State.write_f (addr : Word) (v : Byte) : (s.write addr v).f = s.f := rfl
@[simp] theorem State.write_pc (addr : Word) (v : Byte) : (s.write addr v).pc = s.pc := rfl
@[simp] theorem State.write_sp (addr : Word) (v : Byte) : (s.write addr v).sp = s.sp := rfl
@[simp] theorem State.write_lcc (addr : Word) (v : Byte) : (s.write addr v).lcc = s.lcc := rfl
@[simp] theorem State.write_status (addr : Word) (v : Byte) : (s.write addr v).status = s.status := rfl
@[simp] theorem State.write_fop (addr : Word) (v : Byte) : (s.write addr v).fop = s.fop := rfl
@[simp] theorem State.write_fpc (addr : Word) (v : Byte) : (s.write addr v).fpc = s.fpc := rfl
@[simp] theorem State.write_mem (addr : Word) (v : Byte) : (s.write addr v).mem = Memory.write s.mem addr.toNat v := rfl
@[simp] theorem State.write_getReg (addr : Word) (v : Byte) (r : Reg) : (s.write addr v).getReg r = s.getReg r := by cases r <;> rfl
@[simp] theorem State.write_getPair (addr : Word) (v : Byte) (p : Pair) : (s.write addr v).getPair p = s.getPair p := by cases p <;> rfl
@[simp] theorem State.write_x (addr : Word) (v : Byte) (r : OpReg) : (s.write addr v).x r = s.x r := by cases r <;> rfl
@[simp] theorem State.write_getFlag (addr : Word) (v : Byte) (fl : Flag) : (s.write addr v).getFlag fl = s.getFlag fl := rfl

/-! `setPC`. -/

@[simp] theorem State.setPC_a (w : Word) : (s.setPC w).a = s.a := rfl
@[simp] theorem State.setPC_b (w : Word) : (s.setPC w).b = s.b := rfl
@[simp] theorem State.setPC_c (w : Word) : (s.setPC w).c = s.c := rfl
@[simp] theorem State.setPC_d (w : Word) : (s.setPC w).d = s.d := rfl
@[simp] theorem State.setPC_e (w : Word) : (s.setPC w).e = s.e := rfl
@[simp] theorem State.setPC_h (w : Word) : (s.setPC w).h = s.h := rfl
@[simp] theorem State.setPC_l (w : Word) : (s.setPC w).l = s.l := rfl
@[simp] theorem State.setPC_f (w : Word) : (s.setPC w).f = s.f := rfl
@[simp] theorem State.setPC_pc (w : Word) : (s.setPC w).pc = w := rfl
@[simp] theorem State.setPC_sp (w : Word) : (s.setPC w).sp = s.sp := rfl
@[simp] theorem State.setPC_lcc (w : Word) : (s.setPC w).lcc = s.lcc := rfl
@[simp] theorem State.setPC_status (w : Word) : (s.setPC w).status = s.status := rfl
@[simp] theorem State.setPC_fop (w : Word) : (s.setPC w).fop = s.fop := rfl
@[simp] theorem State.setPC_fpc (w : Word) : (s.setPC w).fpc = s.fpc := rfl
@[simp] theorem State.setPC_mem (w : Word) : (s.setPC w).mem = s.mem := rfl
@[simp] theorem State.setPC_getReg (w : Word) (r : Reg) : (s.setPC w).getReg r = s.getReg r := by cases r <;> rfl
@[simp] theorem State.setPC_getPair (w : Word) (p : Pair) : (s.setPC w).getPair p = s.getPair p := by cases p <;> rfl
@[simp] theorem State.setPC_x (w : Word) (r : OpReg) : (s.setPC w).x r = s.x r := by cases r <;> rfl
@[simp] theorem State.setPC_getFlag (w : Word) (fl : Flag) : (s.setPC w).getFlag fl = s.getFlag fl := rfl
@[simp] theorem State.setPC_read (w : Word) (addr : Word) : (s.setPC w).read addr = s.read addr := rfl

/-! `advancePC`. -/

@[simp] theorem State.advancePC_a (n : Word) : (s.advancePC n).a = s.a := rfl
@[simp] theorem State.advancePC_b (n : Word) : (s.advancePC n).b = s.b := rfl
@[simp] theorem State.advancePC_c (n : Word) : (s.advancePC n).c = s.c := rfl
@[simp] theorem State.advancePC_d (n : Word) : (s.advancePC n).d = s.d := rfl
@[simp] theorem State.advancePC_e (n : Word) : (s.advancePC n).e = s.e := rfl
@[simp] theorem State.advancePC_h (n : Word) : (s.advancePC n).h = s.h := rfl
@[simp] theorem State.advancePC_l (n : Word) : (s.advancePC n).l = s.l := rfl
@[simp] theorem State.advancePC_f (n : Word) : (s.advancePC n).f = s.f := rfl
@[simp] theorem State.advancePC_pc (n : Word) : (s.advancePC n).pc = s.pc + n := rfl
@[simp] theorem State.advancePC_sp (n : Word) : (s.advancePC n).sp = s.sp := rfl
@[simp] theorem State.advancePC_lcc (n : Word) : (s.advancePC n).lcc = s.lcc := rfl
@[simp] theorem State.advancePC_status (n : Word) : (s.advancePC n).status = s.status := rfl
@[simp] theorem State.advancePC_fop (n : Word) : (s.advancePC n).fop = s.fop := rfl
@[simp] theorem State.advancePC_fpc (n : Word) : (s.advancePC n).fpc = s.fpc := rfl
@[simp] theorem State.advancePC_mem (n : Word) : (s.advancePC n).mem = s.mem := rfl
@[simp] theorem State.advancePC_getReg (n : Word) (r : Reg) : (s.advancePC n).getReg r = s.getReg r := by cases r <;> rfl
@[simp] theorem State.advancePC_getPair (n : Word) (p : Pair) : (s.advancePC n).getPair p = s.getPair p := by cases p <;> rfl
@[simp] theorem State.advancePC_x (n : Word) (r : OpReg) : (s.advancePC n).x r = s.x r := by cases r <;> rfl
@[simp] theorem State.advancePC_getFlag (n : Word) (fl : Flag) : (s.advancePC n).getFlag fl = s.getFlag fl := rfl
@[simp] theorem State.advancePC_read (n : Word) (addr : Word) : (s.advancePC n).read addr = s.read addr := rfl

/-! `setSP`. -/

@[simp] theorem State.setSP_a (w : Word) : (s.setSP w).a = s.a := rfl
@[simp] theorem State.setSP_b (w : Word) : (s.setSP w).b = s.b := rfl
@[simp] theorem State.setSP_c (w : Word) : (s.setSP w).c = s.c := rfl
@[simp] theorem State.setSP_d (w : Word) : (s.setSP w).d = s.d := rfl
@[simp] theorem State.setSP_e (w : Word) : (s.setSP w).e = s.e := rfl
@[simp] theorem State.setSP_h (w : Word) : (s.setSP w).h = s.h := rfl
@[simp] theorem State.setSP_l (w : Word) : (s.setSP w).l = s.l := rfl
@[simp] theorem State.setSP_f (w : Word) : (s.setSP w).f = s.f := rfl
@[simp] theorem State.setSP_pc (w : Word) : (s.setSP w).pc = s.pc := rfl
@[simp] theorem State.setSP_sp (w : Word) : (s.setSP w).sp = w := rfl
@[simp] theorem State.setSP_lcc (w : Word) : (s.setSP w).lcc = s.lcc := rfl
@[simp] theorem State.setSP_status (w : Word) : (s.setSP w).status = s.status := rfl
@[simp] theorem State.setSP_fop (w : Word) : (s.setSP w).fop = s.fop := rfl
@[simp] theorem State.setSP_fpc (w : Word) : (s.setSP w).fpc = s.fpc := rfl
@[simp] theorem State.setSP_mem (w : Word) : (s.setSP w).mem = s.mem := rfl
@[simp] theorem State.setSP_getReg (w : Word) (r : Reg) : (s.setSP w).getReg r = s.getReg r := by cases r <;> rfl
@[simp] theorem State.setSP_getPair (w : Word) (p : Pair) : (s.setSP w).getPair p = s.getPair p := by cases p <;> rfl
@[simp] theorem State.setSP_x (w : Word) (r : OpReg) : (s.setSP w).x r = s.x r := by cases r <;> rfl
@[simp] theorem State.setSP_getFlag (w : Word) (fl : Flag) : (s.setSP w).getFlag fl = s.getFlag fl := rfl
@[simp] theorem State.setSP_read (w : Word) (addr : Word) : (s.setSP w).read addr = s.read addr := rfl

/-! `report`. -/

@[simp] theorem State.report_a (op : Byte) : (s.report op).a = s.a := rfl
@[simp] theorem State.report_b (op : Byte) : (s.report op).b = s.b := rfl
@[simp] theorem State.report_c (op : Byte) : (s.report op).c = s.c := rfl
@[simp] theorem State.report_d (op : Byte) : (s.report op).d = s.d := rfl
@[simp] theorem State.report_e (op : Byte) : (s.report op).e = s.e := rfl
@[simp] theorem State.report_h (op : Byte) : (s.report op).h = s.h := rfl
@[simp] theorem State.report_l (op : Byte) : (s.report op).l = s.l := rfl
@[simp] theorem State.report_f (op : Byte) : (s.report op).f = s.f := rfl
@[simp] theorem State.report_pc (op : Byte) : (s.report op).pc = s.pc := rfl
@[simp] theorem State.report_sp (op : Byte) : (s.report op).sp = s.sp := rfl
@[simp] theorem State.report_lcc (op : Byte) : (s.report op).lcc = Config.cost op := rfl
@[simp] theorem State.report_status (op : Byte) : (s.report op).status = s.status := rfl
@[simp] theorem State.report_fop (op : Byte) : (s.report op).fop = s.fop := rfl
@[simp] theorem State.report_fpc (op : Byte) : (s.report op).fpc = s.fpc := rfl
@[simp] theorem State.report_mem (op : Byte) : (s.report op).mem = s.mem := rfl
@[simp] theorem State.report_getReg (op : Byte) (r : Reg) : (s.report op).getReg r = s.getReg r := by cases r <;> rfl
@[simp] theorem State.report_getPair (op : Byte) (p : Pair) : (s.report op).getPair p = s.getPair p := by cases p <;> rfl
@[simp] theorem State.report_x (op : Byte) (r : OpReg) : (s.report op).x r = s.x r := by cases r <;> rfl
@[simp] theorem State.report_getFlag (op : Byte) (fl : Flag) : (s.report op).getFlag fl = s.getFlag fl := rfl
@[simp] theorem State.report_read (op : Byte) (addr : Word) : (s.report op).read addr = s.read addr := rfl

/-! `raiseUnimplementedOpcode`. -/

@[simp] theorem State.raiseUnimplementedOpcode_a (op : Byte) (w : Word) : (s.raiseUnimplementedOpcode op w).a = s.a := rfl
@[simp] theorem State.raiseUnimplementedOpcode_b (op : Byte) (w : Word) : (s.raiseUnimplementedOpcode op w).b = s.b := rfl
@[simp] theorem State.raiseUnimplementedOpcode_c (op : Byte) (w : Word) : (s.raiseUnimplementedOpcode op w).c = s.c := rfl
@[simp] theorem State.raiseUnimplementedOpcode_d (op : Byte) (w : Word) : (s.raiseUnimplementedOpcode op w).d = s.d := rfl
@[simp] theorem State.raiseUnimplementedOpcode_e (op : Byte) (w : Word) : (s.raiseUnimplementedOpcode op w).e = s.e := rfl
@[simp] theorem State.raiseUnimplementedOpcode_h (op : Byte) (w : Word) : (s.raiseUnimplementedOpcode op w).h = s.h := rfl
@[simp] theorem State.raiseUnimplementedOpcode_l (op : Byte) (w : Word) : (s.raiseUnimplementedOpcode op w).l = s.l := rfl
@[simp] theorem State.raiseUnimplementedOpcode_f (op : Byte) (w : Word) : (s.raiseUnimplementedOpcode op w).f = s.f := rfl
@[simp] theorem State.raiseUnimplementedOpcode_pc (op : Byte) (w : Word) : (s.raiseUnimplementedOpcode op w).pc = s.pc := rfl
@[simp] theorem State.raiseUnimplementedOpcode_sp (op : Byte) (w : Word) : (s.raiseUnimplementedOpcode op w).sp = s.sp := rfl
@[simp] theorem State.raiseUnimplementedOpcode_lcc (op : Byte) (w : Word) : (s.raiseUnimplementedOpcode op w).lcc = s.lcc := rfl
@[simp] theorem State.raiseUnimplementedOpcode_status (op : Byte) (w : Word) : (s.raiseUnimplementedOpcode op w).status = .faulted := rfl
@[simp] theorem State.raiseUnimplementedOpcode_fop (op : Byte) (w : Word) : (s.raiseUnimplementedOpcode op w).fop = op := rfl
@[simp] theorem State.raiseUnimplementedOpcode_fpc (op : Byte) (w : Word) : (s.raiseUnimplementedOpcode op w).fpc = w := rfl
@[simp] theorem State.raiseUnimplementedOpcode_mem (op : Byte) (w : Word) : (s.raiseUnimplementedOpcode op w).mem = s.mem := rfl
@[simp] theorem State.raiseUnimplementedOpcode_getReg (op : Byte) (w : Word) (r : Reg) : (s.raiseUnimplementedOpcode op w).getReg r = s.getReg r := by cases r <;> rfl
@[simp] theorem State.raiseUnimplementedOpcode_getPair (op : Byte) (w : Word) (p : Pair) : (s.raiseUnimplementedOpcode op w).getPair p = s.getPair p := by cases p <;> rfl
@[simp] theorem State.raiseUnimplementedOpcode_x (op : Byte) (w : Word) (r : OpReg) : (s.raiseUnimplementedOpcode op w).x r = s.x r := by cases r <;> rfl
@[simp] theorem State.raiseUnimplementedOpcode_getFlag (op : Byte) (w : Word) (fl : Flag) : (s.raiseUnimplementedOpcode op w).getFlag fl = s.getFlag fl := rfl
@[simp] theorem State.raiseUnimplementedOpcode_read (op : Byte) (w : Word) (addr : Word) : (s.raiseUnimplementedOpcode op w).read addr = s.read addr := rfl

/-! `setFlag`. -/

@[simp] theorem State.setFlag_a (fl : Flag) (b : Bool) : (s.setFlag fl b).a = s.a := rfl
@[simp] theorem State.setFlag_b (fl : Flag) (b : Bool) : (s.setFlag fl b).b = s.b := rfl
@[simp] theorem State.setFlag_c (fl : Flag) (b : Bool) : (s.setFlag fl b).c = s.c := rfl
@[simp] theorem State.setFlag_d (fl : Flag) (b : Bool) : (s.setFlag fl b).d = s.d := rfl
@[simp] theorem State.setFlag_e (fl : Flag) (b : Bool) : (s.setFlag fl b).e = s.e := rfl
@[simp] theorem State.setFlag_h (fl : Flag) (b : Bool) : (s.setFlag fl b).h = s.h := rfl
@[simp] theorem State.setFlag_l (fl : Flag) (b : Bool) : (s.setFlag fl b).l = s.l := rfl
@[simp] theorem State.setFlag_f (fl : Flag) (b : Bool) : (s.setFlag fl b).f = putFlag s.f fl b := rfl
@[simp] theorem State.setFlag_pc (fl : Flag) (b : Bool) : (s.setFlag fl b).pc = s.pc := rfl
@[simp] theorem State.setFlag_sp (fl : Flag) (b : Bool) : (s.setFlag fl b).sp = s.sp := rfl
@[simp] theorem State.setFlag_lcc (fl : Flag) (b : Bool) : (s.setFlag fl b).lcc = s.lcc := rfl
@[simp] theorem State.setFlag_status (fl : Flag) (b : Bool) : (s.setFlag fl b).status = s.status := rfl
@[simp] theorem State.setFlag_fop (fl : Flag) (b : Bool) : (s.setFlag fl b).fop = s.fop := rfl
@[simp] theorem State.setFlag_fpc (fl : Flag) (b : Bool) : (s.setFlag fl b).fpc = s.fpc := rfl
@[simp] theorem State.setFlag_mem (fl : Flag) (b : Bool) : (s.setFlag fl b).mem = s.mem := rfl
@[simp] theorem State.setFlag_read (fl : Flag) (b : Bool) (addr : Word) : (s.setFlag fl b).read addr = s.read addr := rfl
@[simp] theorem State.setFlag_x (fl : Flag) (b : Bool) (r : OpReg) : (s.setFlag fl b).x r = s.x r := by cases r <;> rfl

/-! `incFlags`. -/

@[simp] theorem State.incFlags_a (v : Byte) : (s.incFlags v).a = s.a := rfl
@[simp] theorem State.incFlags_b (v : Byte) : (s.incFlags v).b = s.b := rfl
@[simp] theorem State.incFlags_c (v : Byte) : (s.incFlags v).c = s.c := rfl
@[simp] theorem State.incFlags_d (v : Byte) : (s.incFlags v).d = s.d := rfl
@[simp] theorem State.incFlags_e (v : Byte) : (s.incFlags v).e = s.e := rfl
@[simp] theorem State.incFlags_h (v : Byte) : (s.incFlags v).h = s.h := rfl
@[simp] theorem State.incFlags_l (v : Byte) : (s.incFlags v).l = s.l := rfl
@[simp] theorem State.incFlags_f (v : Byte) : (s.incFlags v).f = incF s.f v := rfl
@[simp] theorem State.incFlags_pc (v : Byte) : (s.incFlags v).pc = s.pc := rfl
@[simp] theorem State.incFlags_sp (v : Byte) : (s.incFlags v).sp = s.sp := rfl
@[simp] theorem State.incFlags_lcc (v : Byte) : (s.incFlags v).lcc = s.lcc := rfl
@[simp] theorem State.incFlags_status (v : Byte) : (s.incFlags v).status = s.status := rfl
@[simp] theorem State.incFlags_fop (v : Byte) : (s.incFlags v).fop = s.fop := rfl
@[simp] theorem State.incFlags_fpc (v : Byte) : (s.incFlags v).fpc = s.fpc := rfl
@[simp] theorem State.incFlags_mem (v : Byte) : (s.incFlags v).mem = s.mem := rfl
@[simp] theorem State.incFlags_read (v : Byte) (addr : Word) : (s.incFlags v).read addr = s.read addr := rfl
@[simp] theorem State.incFlags_x (v : Byte) (r : OpReg) : (s.incFlags v).x r = s.x r := by cases r <;> rfl

/-! `decFlags`. -/

@[simp] theorem State.decFlags_a (v : Byte) : (s.decFlags v).a = s.a := rfl
@[simp] theorem State.decFlags_b (v : Byte) : (s.decFlags v).b = s.b := rfl
@[simp] theorem State.decFlags_c (v : Byte) : (s.decFlags v).c = s.c := rfl
@[simp] theorem State.decFlags_d (v : Byte) : (s.decFlags v).d = s.d := rfl
@[simp] theorem State.decFlags_e (v : Byte) : (s.decFlags v).e = s.e := rfl
@[simp] theorem State.decFlags_h (v : Byte) : (s.decFlags v).h = s.h := rfl
@[simp] theorem State.decFlags_l (v : Byte) : (s.decFlags v).l = s.l := rfl
@[simp] theorem State.decFlags_f (v : Byte) : (s.decFlags v).f = decF s.f v := rfl
@[simp] theorem State.decFlags_pc (v : Byte) : (s.decFlags v).pc = s.pc := rfl
@[simp] theorem State.decFlags_sp (v : Byte) : (s.decFlags v).sp = s.sp := rfl
@[simp] theorem State.decFlags_lcc (v : Byte) : (s.decFlags v).lcc = s.lcc := rfl
@[simp] theorem State.decFlags_status (v : Byte) : (s.decFlags v).status = s.status := rfl
@[simp] theorem State.decFlags_fop (v : Byte) : (s.decFlags v).fop = s.fop := rfl
@[simp] theorem State.decFlags_fpc (v : Byte) : (s.decFlags v).fpc = s.fpc := rfl
@[simp] theorem State.decFlags_mem (v : Byte) : (s.decFlags v).mem = s.mem := rfl
@[simp] theorem State.decFlags_read (v : Byte) (addr : Word) : (s.decFlags v).read addr = s.read addr := rfl
@[simp] theorem State.decFlags_x (v : Byte) (r : OpReg) : (s.decFlags v).x r = s.x r := by cases r <;> rfl

/-! `addFlags`. -/

@[simp] theorem State.addFlags_a (v w : Word) : (s.addFlags v w).a = s.a := rfl
@[simp] theorem State.addFlags_b (v w : Word) : (s.addFlags v w).b = s.b := rfl
@[simp] theorem State.addFlags_c (v w : Word) : (s.addFlags v w).c = s.c := rfl
@[simp] theorem State.addFlags_d (v w : Word) : (s.addFlags v w).d = s.d := rfl
@[simp] theorem State.addFlags_e (v w : Word) : (s.addFlags v w).e = s.e := rfl
@[simp] theorem State.addFlags_h (v w : Word) : (s.addFlags v w).h = s.h := rfl
@[simp] theorem State.addFlags_l (v w : Word) : (s.addFlags v w).l = s.l := rfl
@[simp] theorem State.addFlags_f (v w : Word) : (s.addFlags v w).f = addF s.f v w := rfl
@[simp] theorem State.addFlags_pc (v w : Word) : (s.addFlags v w).pc = s.pc := rfl
@[simp] theorem State.addFlags_sp (v w : Word) : (s.addFlags v w).sp = s.sp := rfl
@[simp] theorem State.addFlags_lcc (v w : Word) : (s.addFlags v w).lcc = s.lcc := rfl
@[simp] theorem State.addFlags_status (v w : Word) : (s.addFlags v w).status = s.status := rfl
@[simp] theorem State.addFlags_fop (v w : Word) : (s.addFlags v w).fop = s.fop := rfl
@[simp] theorem State.addFlags_fpc (v w : Word) : (s.addFlags v w).fpc = s.fpc := rfl
@[simp] theorem State.addFlags_mem (v w : Word) : (s.addFlags v w).mem = s.mem := rfl
@[simp] theorem State.addFlags_read (v w : Word) (addr : Word) : (s.addFlags v w).read addr = s.read addr := rfl
@[simp] theorem State.addFlags_x (v w : Word) (r : OpReg) : (s.addFlags v w).x r = s.x r := by cases r <;> rfl

/-! `setReg`. -/

@[simp] theorem State.setReg_a (r : Reg) (v : Byte) : (s.setReg r v).a = if r = .a then v else s.a := by cases r <;> rfl
@[simp] theorem State.setReg_b (r : Reg) (v : Byte) : (s.setReg r v).b = if r = .b then v else s.b := by cases r <;> rfl
@[simp] theorem State.setReg_c (r : Reg) (v : Byte) : (s.setReg r v).c = if r = .c then v else s.c := by cases r <;> rfl
@[simp] theorem State.setReg_d (r : Reg) (v : Byte) : (s.setReg r v).d = if r = .d then v else s.d := by cases r <;> rfl
@[simp] theorem State.setReg_e (r : Reg) (v : Byte) : (s.setReg r v).e = if r = .e then v else s.e := by cases r <;> rfl
@[simp] theorem State.setReg_h (r : Reg) (v : Byte) : (s.setReg r v).h = if r = .h then v else s.h := by cases r <;> rfl
@[simp] theorem State.setReg_l (r : Reg) (v : Byte) : (s.setReg r v).l = if r = .l then v else s.l := by cases r <;> rfl
@[simp] theorem State.setReg_f (r : Reg) (v : Byte) : (s.setReg r v).f = if r = .f then v else s.f := by cases r <;> rfl
@[simp] theorem State.setReg_pc (r : Reg) (v : Byte) : (s.setReg r v).pc = s.pc := by cases r <;> rfl
@[simp] theorem State.setReg_sp (r : Reg) (v : Byte) : (s.setReg r v).sp = s.sp := by cases r <;> rfl
@[simp] theorem State.setReg_lcc (r : Reg) (v : Byte) : (s.setReg r v).lcc = s.lcc := by cases r <;> rfl
@[simp] theorem State.setReg_status (r : Reg) (v : Byte) : (s.setReg r v).status = s.status := by cases r <;> rfl
@[simp] theorem State.setReg_fop (r : Reg) (v : Byte) : (s.setReg r v).fop = s.fop := by cases r <;> rfl
@[simp] theorem State.setReg_fpc (r : Reg) (v : Byte) : (s.setReg r v).fpc = s.fpc := by cases r <;> rfl
@[simp] theorem State.setReg_mem (r : Reg) (v : Byte) : (s.setReg r v).mem = s.mem := by cases r <;> rfl
@[simp] theorem State.setReg_read (r : Reg) (v : Byte) (addr : Word) : (s.setReg r v).read addr = s.read addr := by cases r <;> rfl
@[simp] theorem State.getReg_setReg_same (r : Reg) (v : Byte) : (s.setReg r v).getReg r = v := by cases r <;> rfl
theorem State.getReg_setReg (r r' : Reg) (v : Byte) :
    (s.setReg r v).getReg r' = if r' = r then v else s.getReg r' := by cases r <;> cases r' <;> rfl

/-! `setX, setPair`. -/

@[simp] theorem State.setX_pc (r : OpReg) (v : Byte) : (s.setX r v).pc = s.pc := by cases r <;> rfl
@[simp] theorem State.setPair_pc (p : Pair) (w : Word) : (s.setPair p w).pc = s.pc := by cases p <;> rfl
@[simp] theorem State.setX_sp (r : OpReg) (v : Byte) : (s.setX r v).sp = s.sp := by cases r <;> rfl
@[simp] theorem State.setPair_sp (p : Pair) (w : Word) : (s.setPair p w).sp = s.sp := by cases p <;> rfl
@[simp] theorem State.setX_lcc (r : OpReg) (v : Byte) : (s.setX r v).lcc = s.lcc := by cases r <;> rfl
@[simp] theorem State.setPair_lcc (p : Pair) (w : Word) : (s.setPair p w).lcc = s.lcc := by cases p <;> rfl
@[simp] theorem State.setX_status (r : OpReg) (v : Byte) : (s.setX r v).status = s.status := by cases r <;> rfl
@[simp] theorem State.setPair_status (p : Pair) (w : Word) : (s.setPair p w).status = s.status := by cases p <;> rfl
@[simp] theorem State.setX_fop (r : OpReg) (v : Byte) : (s.setX r v).fop = s.fop := by cases r <;> rfl
@[simp] theorem State.setPair_fop (p : Pair) (w : Word) : (s.setPair p w).fop = s.fop := by cases p <;> rfl
@[simp] theorem State.setX_fpc (r : OpReg) (v : Byte) : (s.setX r v).fpc = s.fpc := by cases r <;> rfl
@[simp] theorem State.setPair_fpc (p : Pair) (w : Word) : (s.setPair p w).fpc = s.fpc := by cases p <;> rfl
@[simp] theorem State.setX_mem (r : OpReg) (v : Byte) : (s.setX r v).mem = s.mem := by cases r <;> rfl
@[simp] theorem State.setPair_mem (p : Pair) (w : Word) : (s.setPair p w).mem = s.mem := by cases p <;> rfl
@[simp] theorem State.setX_f (r : OpReg) (v : Byte) : (s.setX r v).f = s.f := by cases r <;> rfl
@[simp] theorem State.setPair_a (p : Pair) (w : Word) : (s.setPair p w).a = if pairHi p = .a then hiByte w else if pairLo p = .a then loByte w else s.a := by cases p <;> rfl
@[simp] theorem State.setPair_b (p : Pair) (w : Word) : (s.setPair p w).b = if pairHi p = .b then hiByte w else if pairLo p = .b then loByte w else s.b := by cases p <;> rfl
@[simp] theorem State.setPair_c (p : Pair) (w : Word) : (s.setPair p w).c = if pairHi p = .c then hiByte w else if pairLo p = .c then loByte w else s.c := by cases p <;> rfl
@[simp] theorem State.setPair_d (p : Pair) (w : Word) : (s.setPair p w).d = if pairHi p = .d then hiByte w else if pairLo p = .d then loByte w else s.d := by cases p <;> rfl
@[simp] theorem State.setPair_e (p : Pair) (w : Word) : (s.setPair p w).e = if pairHi p = .e then hiByte w else if pairLo p = .e then loByte w else s.e := by cases p <;> rfl
@[simp] theorem State.setPair_h (p : Pair) (w : Word) : (s.setPair p w).h = if pairHi p = .h then hiByte w else if pairLo p = .h then loByte w else s.h := by cases p <;> rfl
@[simp] theorem State.setPair_l (p : Pair) (w : Word) : (s.setPair p w).l = if pairHi p = .l then hiByte w else if pairLo p = .l then loByte w else s.l := by cases p <;> rfl
@[simp] theorem State.setPair_f (p : Pair) (w : Word) : (s.setPair p w).f = if pairHi p = .f then hiByte w else if pairLo p = .f then loByte w else s.f := by cases p <;> rfl
@[simp] theorem State.setX_read (r : OpReg) (v : Byte) (addr : Word) : (s.setX r v).read addr = s.read addr := by cases r <;> rfl
@[simp] theorem State.setPair_read (p : Pair) (w addr : Word) : (s.setPair p w).read addr = s.read addr := by cases p <;> rfl
@[simp] theorem State.x_setX_same (r : OpReg) (v : Byte) : (s.setX r v).x r = v := by cases r <;> rfl

/-! `pushWord`. -/

@[simp] theorem State.pushWord_a (w : Word) : (s.pushWord w).a = s.a := rfl
@[simp] theorem State.pushWord_b (w : Word) : (s.pushWord w).b = s.b := rfl
@[simp] theorem State.pushWord_c (w : Word) : (s.pushWord w).c = s.c := rfl
@[simp] theorem State.pushWord_d (w : Word) : (s.pushWord w).d = s.d := rfl
@[simp] theorem State.pushWord_e (w : Word) : (s.pushWord w).e = s.e := rfl
@[simp] theorem State.pushWord_h (w : Word) : (s.pushWord w).h = s.h := rfl
@[simp] theorem State.pushWord_l (w : Word) : (s.pushWord w).l = s.l := rfl
@[simp] theorem State.pushWord_f (w : Word) : (s.pushWord w).f = s.f := rfl
@[simp] theorem State.pushWord_pc (w : Word) : (s.pushWord w).pc = s.pc := rfl
@[simp] theorem State.pushWord_sp (w : Word) : (s.pushWord w).sp = s.sp - 2 := rfl
@[simp] theorem State.pushWord_lcc (w : Word) : (s.pushWord w).lcc = s.lcc := rfl
@[simp] theorem State.pushWord_status (w : Word) : (s.pushWord w).status = s.status := rfl
@[simp] theorem State.pushWord_fop (w : Word) : (s.pushWord w).fop = s.fop := rfl
@[simp] theorem State.pushWord_fpc (w : Word) : (s.pushWord w).fpc = s.fpc := rfl
@[simp] theorem State.pushWord_mem (w : Word) : (s.pushWord w).mem = Memory.pushAt s.mem (s.sp - 2) w := rfl
@[simp] theorem State.pushWord_getReg (w : Word) (r : Reg) : (s.pushWord w).getReg r = s.getReg r := by cases r <;> rfl
@[simp] theorem State.pushWord_getPair (w : Word) (p : Pair) : (s.pushWord w).getPair p = s.getPair p := by cases p <;> rfl

end Sys2Proof.Machine
end

