-- ==== Sys2Proof/Laws/Ops.lean ====
section
/-! SUPPORT. What each shared operation does, once. -/

namespace Sys2Proof.Machine

/-! The end of an instruction. -/

/-- A straight-line instruction ends with `pc` past its bytes and its cost reported. -/
theorem straight_eq (op : Byte) (n : Word) (s : State) :
    straight op n s = .next { s with pc := s.pc + (1 + n), lcc := Config.cost op } := rfl

/-- A control-flow instruction ends with `pc` at its target and its cost reported. -/
theorem redirect_eq (op : Byte) (target : Word) (s : State) :
    redirect op target s = .next { s with pc := target, lcc := Config.cost op } := rfl

/-- The one cost the spec fixes (70_reset_and_hazards.md R160). -/
theorem cost_jp : Config.cost 0xC3 = 12 := rfl

/-- Every cost is at least 1 (70_reset_and_hazards.md R160). -/
theorem cost_pos (op : Byte) : 0 < (Config.cost op).toNat := by
  unfold Config.cost
  split
  · decide
  · have h := (Config.freeCost op).isLt
    rw [BitVec.toNat_ofNat, Nat.mod_eq_of_lt (by omega)]
    omega

/-! Pairs. -/

/-- A pair write is read back (10_state.md R13). -/
@[simp] theorem State.getPair_setPair (s : State) (p : Pair) (w : Word) : (s.setPair p w).getPair p = w := by
  cases p <;> exact wordOf_hiByte_loByte w

/-- A pair write sets its two registers and no other (10_state.md R13). -/
theorem State.getReg_setPair (s : State) (p : Pair) (w : Word) (r : Reg) :
    (s.setPair p w).getReg r =
      if r = pairHi p then hiByte w else if r = pairLo p then loByte w else s.getReg r := by
  cases p <;> cases r <;> rfl

/-! The stack. -/

/-- A push, byte by byte: high byte at the old `sp` less 1, low byte at the old `sp` less 2 (20_memory.md R54). -/
theorem State.pushWord_eq (s : State) (w : Word) :
    s.pushWord w = { (s.write (s.sp - 1) (hiByte w)).write (s.sp - 2) (loByte w) with sp := s.sp - 2 } := by
  have h : s.sp - 2 + 1 = s.sp - 1 := by bv_omega
  simp only [State.pushWord, Memory.pushAt, State.write, h]

theorem State.wf_pushWord {s : State} {w : Word} (h : Memory.wf s.mem) : Memory.wf (s.pushWord w).mem := by
  rw [State.pushWord_eq]
  exact State.wf_write (State.wf_write h)

/-- The two stack bytes of a push differ from each other. -/
theorem sub_one_ne_sub_two (w : Word) : w - 1 ≠ w - 2 := by bv_omega

/-- Every byte after a push: the two pushed ones, and the rest as before. -/
theorem State.read_pushWord {s : State} {w : Word} (h : Memory.wf s.mem) (addr : Word) :
    (s.pushWord w).read addr =
      if addr = s.sp - 2 then loByte w else if addr = s.sp - 1 then hiByte w else s.read addr := by
  rw [State.pushWord_eq]
  show ((s.write (s.sp - 1) (hiByte w)).write (s.sp - 2) (loByte w)).read addr = _
  split
  · subst addr
    exact State.read_write_same (State.wf_write h)
  · rw [State.read_write_other (State.wf_write h) ‹_›]
    split
    · subst addr
      exact State.read_write_same h
    · exact State.read_write_other h ‹_›

/-- What was pushed is on top of the stack (45_stack.md R117). -/
theorem State.topWord_pushWord {s : State} {w : Word} (h : Memory.wf s.mem) : (s.pushWord w).topWord = w := by
  have e : s.sp - 2 + 1 = s.sp - 1 := by bv_omega
  have hne : ¬ s.sp - 1 = s.sp - 2 := sub_one_ne_sub_two s.sp
  rw [State.topWord, State.pushWord_sp, e, State.read_pushWord h, State.read_pushWord h, if_neg hne, if_pos rfl,
    if_pos rfl, wordOf_hiByte_loByte]

/-! Storing a list of bytes: the image of a launch, and a placed instruction. -/

/-- Only memory changes. -/
theorem State.writeBytes_eq (s : State) (addr : Word) (bytes : List Byte) :
    s.writeBytes addr bytes = { s with mem := (s.writeBytes addr bytes).mem } := by
  induction bytes generalizing s addr with
  | nil => rfl
  | cons v rest ih => exact ih (s.write addr v) (addr + 1)

/-- A byte outside the stored ones reads as before. -/
theorem State.read_writeBytes_other {s : State} {addr x : Word} {bytes : List Byte} (h : Memory.wf s.mem)
    (hx : bytes.length ≤ (x - addr).toNat) : (s.writeBytes addr bytes).read x = s.read x := by
  induction bytes generalizing s addr with
  | nil => rfl
  | cons v rest ih =>
    have hlen : rest.length + 1 ≤ (x - addr).toNat := hx
    have hne : x ≠ addr := by bv_omega
    have hrest : rest.length ≤ (x - (addr + 1)).toNat := by bv_omega
    exact (ih (State.wf_write h) hrest).trans (State.read_write_other h hne)

/-- A list of at most 65536 bytes reads back byte for byte. -/
theorem State.read_writeBytes {s : State} {addr x : Word} {bytes : List Byte} (h : Memory.wf s.mem)
    (hlen : bytes.length ≤ 65536) (hx : (x - addr).toNat < bytes.length) :
    (s.writeBytes addr bytes).read x = bytes[(x - addr).toNat] := by
  induction bytes generalizing s addr with
  | nil => exact absurd hx (by simp)
  | cons v rest ih =>
    have hlen' : rest.length + 1 ≤ 65536 := hlen
    show ((s.write addr v).writeBytes (addr + 1) rest).read x = _
    by_cases hxa : x = addr
    · subst hxa
      rw [State.read_writeBytes_other (State.wf_write h) (by bv_omega), State.read_write_same h]
      simp
    · have e : (x - addr).toNat = (x - (addr + 1)).toNat + 1 := by bv_omega
      have hx' : (x - (addr + 1)).toNat < rest.length := by simp only [List.length_cons] at hx; omega
      rw [ih (State.wf_write h) (by omega) hx']
      simp [e]

/-! Fetch. -/

/-- The three bytes from `addr` up always decode, to the instruction fetched there. -/
theorem decode_fetched (s : State) (addr : Word) :
    ∃ rest, decode [s.read addr, s.read (addr + 1), s.read (addr + 2)] = .ok (instrAt s addr, rest) := by
  simp only [decode, instrAt]
  cases decodeEntry (s.read addr) <;> exact ⟨_, rfl⟩

/-- A running core fetches the instruction at `pc`. -/
theorem fetchInstr_running {s : State} (h : s.status = .running) : fetchInstr s = .ok (instrAt s s.pc) := by
  simp [fetchInstr, h]

/-- A Faulted core fetches nothing. -/
theorem fetchInstr_faulted {s : State} (h : s.status = .faulted) : fetchInstr s = .error .coreFaulted := by
  simp [fetchInstr, h]

end Sys2Proof.Machine
end

