-- ==== Sys2Proof/Laws/Meanings.lean ====
section
/-! SUPPORT. The next state of each family's shared meaning, once: callers cite these and unfold no meaning. -/

namespace Sys2Proof.Machine

theorem loadRegReg_eq (op : Byte) (dst src : OpReg) (s : State) :
    loadRegReg op dst src s = .next (((s.setX dst (s.x src)).setPC (s.pc + 1)).report op) := by
  cases dst <;> rfl

theorem loadRegImm_eq (op : Byte) (dst : OpReg) (n : Byte) (s : State) :
    loadRegImm op dst n s = .next (((s.setX dst n).setPC (s.pc + 2)).report op) := by
  cases dst <;> rfl

theorem loadRegMem_eq (op : Byte) (dst : OpReg) (addr : Pair) (s : State) :
    loadRegMem op dst addr s =
      .next (((s.setX dst (s.read (s.getPair addr))).setPC (s.pc + 1)).report op) := by
  cases dst <;> rfl

theorem storeReg_eq (op : Byte) (addr : Pair) (src : OpReg) (s : State) :
    storeReg op addr src s =
      .next (((s.write (s.getPair addr) (s.x src)).setPC (s.pc + 1)).report op) := rfl

theorem storeImm_eq (op : Byte) (addr : Pair) (n : Byte) (s : State) :
    storeImm op addr n s = .next (((s.write (s.getPair addr) n).setPC (s.pc + 2)).report op) := rfl

theorem incReg_eq (op : Byte) (r : OpReg) (s : State) :
    incReg op r s =
      .next ((((s.setX r (s.x r + 1)).incFlags (s.x r)).setPC (s.pc + 1)).report op) := by
  rw [← incResult_eq]
  cases r <;> rfl

theorem decReg_eq (op : Byte) (r : OpReg) (s : State) :
    decReg op r s =
      .next ((((s.setX r (s.x r - 1)).decFlags (s.x r)).setPC (s.pc + 1)).report op) := by
  rw [← decResult_eq]
  cases r <;> rfl

theorem addToHL_eq (op : Byte) (p : AddPair) (s : State) :
    addToHL op p s =
      .next ((((s.setPair .hl (s.getPair .hl + s.getPair (addPair p))).addFlags (s.getPair .hl)
        (s.getPair (addPair p))).setPC (s.pc + 1)).report op) := by
  rw [← sum_eq]
  rfl

theorem pushPair_eq (op : Byte) (q : Pair) (s : State) :
    pushPair op q s =
      .next (((s.pushWord (s.getPair q)).setPC (s.pc + 1)).report op) := rfl

theorem popPair_eq (op : Byte) (q : Pair) (s : State) :
    popPair op q s =
      .next ((((s.setPair q s.topWord).setSP (s.sp + 2)).setPC (s.pc + 1)).report op) := by
  cases q <;> rfl

theorem restart_eq (op : Byte) (ttt : BitVec 3) (s : State) :
    restart op ttt s =
      .next (((s.pushWord (s.pc + 1)).setPC (vectorAddress ttt)).report op) := rfl

/-- The eight registers after a write of a coded one. -/
theorem State.getReg_setX (s : State) (r : OpReg) (v : Byte) (r' : Reg) :
    (s.setX r v).getReg r' = if r' = opReg r then v else s.getReg r' :=
  State.getReg_setReg s (opReg r) r' v

/-- The registers after the flags of an increment: all but F as before. -/
theorem State.getReg_incFlags (s : State) (v : Byte) (r : Reg) (h : r ≠ .f) : (s.incFlags v).getReg r = s.getReg r := by
  cases r <;> first | rfl | exact absurd rfl h

theorem State.getReg_decFlags (s : State) (v : Byte) (r : Reg) (h : r ≠ .f) : (s.decFlags v).getReg r = s.getReg r := by
  cases r <;> first | rfl | exact absurd rfl h

theorem State.getReg_addFlags (s : State) (v w : Word) (r : Reg) (h : r ≠ .f) :
    (s.addFlags v w).getReg r = s.getReg r := by
  cases r <;> first | rfl | exact absurd rfl h

end Sys2Proof.Machine
end

