-- ==== Sys2Proof/Laws/PerInstr.lean ====
section
/-! SUPPORT. Statements about every instruction as syntax, one lemma per constructor. -/

namespace Sys2Proof.Laws.EncodedShape

/-- The encoding of a well-formed instruction is its opcode byte and as many bytes as the decode table says for it
(30_encoding.md R60, R61). -/
def Statement (i : Instr) : Prop :=
  i.wellFormed = true →
    encode i = i.opcode :: (encode i).tail ∧ (encode i).tail.length = (decodeEntry i.opcode).operandLength

theorem nop : Statement .nop := fun _ => ⟨rfl, rfl⟩

theorem ldBB : Statement .ldBB := fun _ => ⟨rfl, rfl⟩

theorem ldBC : Statement .ldBC := fun _ => ⟨rfl, rfl⟩

theorem ldBD : Statement .ldBD := fun _ => ⟨rfl, rfl⟩

theorem ldBE : Statement .ldBE := fun _ => ⟨rfl, rfl⟩

theorem ldBH : Statement .ldBH := fun _ => ⟨rfl, rfl⟩

theorem ldBL : Statement .ldBL := fun _ => ⟨rfl, rfl⟩

theorem ldBA : Statement .ldBA := fun _ => ⟨rfl, rfl⟩

theorem ldCB : Statement .ldCB := fun _ => ⟨rfl, rfl⟩

theorem ldCC : Statement .ldCC := fun _ => ⟨rfl, rfl⟩

theorem ldCD : Statement .ldCD := fun _ => ⟨rfl, rfl⟩

theorem ldCE : Statement .ldCE := fun _ => ⟨rfl, rfl⟩

theorem ldCH : Statement .ldCH := fun _ => ⟨rfl, rfl⟩

theorem ldCL : Statement .ldCL := fun _ => ⟨rfl, rfl⟩

theorem ldCA : Statement .ldCA := fun _ => ⟨rfl, rfl⟩

theorem ldDB : Statement .ldDB := fun _ => ⟨rfl, rfl⟩

theorem ldDC : Statement .ldDC := fun _ => ⟨rfl, rfl⟩

theorem ldDD : Statement .ldDD := fun _ => ⟨rfl, rfl⟩

theorem ldDE : Statement .ldDE := fun _ => ⟨rfl, rfl⟩

theorem ldDH : Statement .ldDH := fun _ => ⟨rfl, rfl⟩

theorem ldDL : Statement .ldDL := fun _ => ⟨rfl, rfl⟩

theorem ldDA : Statement .ldDA := fun _ => ⟨rfl, rfl⟩

theorem ldEB : Statement .ldEB := fun _ => ⟨rfl, rfl⟩

theorem ldEC : Statement .ldEC := fun _ => ⟨rfl, rfl⟩

theorem ldED : Statement .ldED := fun _ => ⟨rfl, rfl⟩

theorem ldEE : Statement .ldEE := fun _ => ⟨rfl, rfl⟩

theorem ldEH : Statement .ldEH := fun _ => ⟨rfl, rfl⟩

theorem ldEL : Statement .ldEL := fun _ => ⟨rfl, rfl⟩

theorem ldEA : Statement .ldEA := fun _ => ⟨rfl, rfl⟩

theorem ldHB : Statement .ldHB := fun _ => ⟨rfl, rfl⟩

theorem ldHC : Statement .ldHC := fun _ => ⟨rfl, rfl⟩

theorem ldHD : Statement .ldHD := fun _ => ⟨rfl, rfl⟩

theorem ldHE : Statement .ldHE := fun _ => ⟨rfl, rfl⟩

theorem ldHH : Statement .ldHH := fun _ => ⟨rfl, rfl⟩

theorem ldHL : Statement .ldHL := fun _ => ⟨rfl, rfl⟩

theorem ldHA : Statement .ldHA := fun _ => ⟨rfl, rfl⟩

theorem ldLB : Statement .ldLB := fun _ => ⟨rfl, rfl⟩

theorem ldLC : Statement .ldLC := fun _ => ⟨rfl, rfl⟩

theorem ldLD : Statement .ldLD := fun _ => ⟨rfl, rfl⟩

theorem ldLE : Statement .ldLE := fun _ => ⟨rfl, rfl⟩

theorem ldLH : Statement .ldLH := fun _ => ⟨rfl, rfl⟩

theorem ldLL : Statement .ldLL := fun _ => ⟨rfl, rfl⟩

theorem ldLA : Statement .ldLA := fun _ => ⟨rfl, rfl⟩

theorem ldAB : Statement .ldAB := fun _ => ⟨rfl, rfl⟩

theorem ldAC : Statement .ldAC := fun _ => ⟨rfl, rfl⟩

theorem ldAD : Statement .ldAD := fun _ => ⟨rfl, rfl⟩

theorem ldAE : Statement .ldAE := fun _ => ⟨rfl, rfl⟩

theorem ldAH : Statement .ldAH := fun _ => ⟨rfl, rfl⟩

theorem ldAL : Statement .ldAL := fun _ => ⟨rfl, rfl⟩

theorem ldAA : Statement .ldAA := fun _ => ⟨rfl, rfl⟩

theorem ldBImm (n : Byte) : Statement (.ldBImm n) := fun _ => ⟨rfl, rfl⟩

theorem ldCImm (n : Byte) : Statement (.ldCImm n) := fun _ => ⟨rfl, rfl⟩

theorem ldDImm (n : Byte) : Statement (.ldDImm n) := fun _ => ⟨rfl, rfl⟩

theorem ldEImm (n : Byte) : Statement (.ldEImm n) := fun _ => ⟨rfl, rfl⟩

theorem ldHImm (n : Byte) : Statement (.ldHImm n) := fun _ => ⟨rfl, rfl⟩

theorem ldLImm (n : Byte) : Statement (.ldLImm n) := fun _ => ⟨rfl, rfl⟩

theorem ldAImm (n : Byte) : Statement (.ldAImm n) := fun _ => ⟨rfl, rfl⟩

theorem ldBMemHL : Statement .ldBMemHL := fun _ => ⟨rfl, rfl⟩

theorem ldCMemHL : Statement .ldCMemHL := fun _ => ⟨rfl, rfl⟩

theorem ldDMemHL : Statement .ldDMemHL := fun _ => ⟨rfl, rfl⟩

theorem ldEMemHL : Statement .ldEMemHL := fun _ => ⟨rfl, rfl⟩

theorem ldHMemHL : Statement .ldHMemHL := fun _ => ⟨rfl, rfl⟩

theorem ldLMemHL : Statement .ldLMemHL := fun _ => ⟨rfl, rfl⟩

theorem ldAMemHL : Statement .ldAMemHL := fun _ => ⟨rfl, rfl⟩

theorem ldMemHLB : Statement .ldMemHLB := fun _ => ⟨rfl, rfl⟩

theorem ldMemHLC : Statement .ldMemHLC := fun _ => ⟨rfl, rfl⟩

theorem ldMemHLD : Statement .ldMemHLD := fun _ => ⟨rfl, rfl⟩

theorem ldMemHLE : Statement .ldMemHLE := fun _ => ⟨rfl, rfl⟩

theorem ldMemHLH : Statement .ldMemHLH := fun _ => ⟨rfl, rfl⟩

theorem ldMemHLL : Statement .ldMemHLL := fun _ => ⟨rfl, rfl⟩

theorem ldMemHLA : Statement .ldMemHLA := fun _ => ⟨rfl, rfl⟩

theorem ldMemHLImm (n : Byte) : Statement (.ldMemHLImm n) := fun _ => ⟨rfl, rfl⟩

theorem ldAMemBC : Statement .ldAMemBC := fun _ => ⟨rfl, rfl⟩

theorem ldAMemDE : Statement .ldAMemDE := fun _ => ⟨rfl, rfl⟩

theorem ldMemBCA : Statement .ldMemBCA := fun _ => ⟨rfl, rfl⟩

theorem ldMemDEA : Statement .ldMemDEA := fun _ => ⟨rfl, rfl⟩

theorem incB : Statement .incB := fun _ => ⟨rfl, rfl⟩

theorem incC : Statement .incC := fun _ => ⟨rfl, rfl⟩

theorem incD : Statement .incD := fun _ => ⟨rfl, rfl⟩

theorem incE : Statement .incE := fun _ => ⟨rfl, rfl⟩

theorem incH : Statement .incH := fun _ => ⟨rfl, rfl⟩

theorem incL : Statement .incL := fun _ => ⟨rfl, rfl⟩

theorem incA : Statement .incA := fun _ => ⟨rfl, rfl⟩

theorem decB : Statement .decB := fun _ => ⟨rfl, rfl⟩

theorem decC : Statement .decC := fun _ => ⟨rfl, rfl⟩

theorem decD : Statement .decD := fun _ => ⟨rfl, rfl⟩

theorem decE : Statement .decE := fun _ => ⟨rfl, rfl⟩

theorem decH : Statement .decH := fun _ => ⟨rfl, rfl⟩

theorem decL : Statement .decL := fun _ => ⟨rfl, rfl⟩

theorem decA : Statement .decA := fun _ => ⟨rfl, rfl⟩

theorem addHLBC : Statement .addHLBC := fun _ => ⟨rfl, rfl⟩

theorem addHLDE : Statement .addHLDE := fun _ => ⟨rfl, rfl⟩

theorem addHLHL : Statement .addHLHL := fun _ => ⟨rfl, rfl⟩

theorem jp (nn : Word) : Statement (.jp nn) := fun _ => ⟨rfl, rfl⟩

theorem jr (e : Byte) : Statement (.jr e) := fun _ => ⟨rfl, rfl⟩

theorem pushBC : Statement .pushBC := fun _ => ⟨rfl, rfl⟩

theorem pushDE : Statement .pushDE := fun _ => ⟨rfl, rfl⟩

theorem pushHL : Statement .pushHL := fun _ => ⟨rfl, rfl⟩

theorem pushAF : Statement .pushAF := fun _ => ⟨rfl, rfl⟩

theorem popBC : Statement .popBC := fun _ => ⟨rfl, rfl⟩

theorem popDE : Statement .popDE := fun _ => ⟨rfl, rfl⟩

theorem popHL : Statement .popHL := fun _ => ⟨rfl, rfl⟩

theorem popAF : Statement .popAF := fun _ => ⟨rfl, rfl⟩

theorem rst00 : Statement .rst00 := fun _ => ⟨rfl, rfl⟩

theorem rst08 : Statement .rst08 := fun _ => ⟨rfl, rfl⟩

theorem rst10 : Statement .rst10 := fun _ => ⟨rfl, rfl⟩

theorem rst18 : Statement .rst18 := fun _ => ⟨rfl, rfl⟩

theorem rst20 : Statement .rst20 := fun _ => ⟨rfl, rfl⟩

theorem rst28 : Statement .rst28 := fun _ => ⟨rfl, rfl⟩

theorem rst30 : Statement .rst30 := fun _ => ⟨rfl, rfl⟩

theorem rst38 : Statement .rst38 := fun _ => ⟨rfl, rfl⟩

theorem unimplemented (op : Byte) : Statement (.unimplemented op) := fun h =>
  ⟨rfl, by
    have hop : implemented op = false := by simpa [Instr.wellFormed] using h
    show 0 = (decodeEntry op).operandLength
    rw [decodeEntry_of_not_implemented hop]
    rfl⟩

end Sys2Proof.Laws.EncodedShape
end

