-- ==== Sys2Proof/Tests/Slice0.lean ====
section
/-! SUPPORT. Own tests: the check of well-formedness, words decoded bit by bit, one step per vector of
95_test_vectors.md (V01 to V74; the expected values are the spec's), and a witness for the hypotheses of every statement. -/

namespace Sys2Proof.Tests

open Sys2Proof.Machine

/-! Helpers. -/

/-- A look at the next state of an answer. -/
def after {α : Type} (r : Result) (look : State → α) : Option α :=
  match r with
  | .next t => some (look t)
  | .fault _ => none
  | .refused _ => none

/-- The reset state with `bytes` at `addr` and `pc` there. -/
def codeAt (addr : Word) (bytes : List Byte) : State := { State.reset.writeBytes addr bytes with pc := addr }

/-! Well-formed terms. -/

theorem test_wellFormed_refuses_implemented_byte : (Instr.unimplemented 0x00).wellFormed = false := by decide

theorem test_wellFormed_accepts : (Instr.unimplemented 0xD3).wellFormed = true ∧ (Instr.jp 0xFFFF).wellFormed = true := by
  decide

theorem test_implemented_count : implementedBytes.length = 111 ∧ implementedBytes.Nodup := by decide +kernel

/-! Decoding: words from the formats of 30_encoding.md R63, written out bit by bit. -/

theorem test_decode_nop : decode [0b00000000] = .ok (.nop, []) := rfl
theorem test_decode_ldRegReg : decode [0b01111000] = .ok (.ldAB, []) ∧ decode [0b01000111] = .ok (.ldBA, []) := ⟨rfl, rfl⟩
theorem test_decode_ldRegImm : decode [0b00100110, 0xC0, 0x99] = .ok (.ldHImm 0xC0, [0x99]) := rfl
theorem test_decode_ldRegMem : decode [0b01101110] = .ok (.ldLMemHL, []) := rfl
theorem test_decode_ldMemReg : decode [0b01110111] = .ok (.ldMemHLA, []) := rfl
theorem test_decode_ldMemImm : decode [0b00110110, 0x5A] = .ok (.ldMemHLImm 0x5A, []) := rfl
theorem test_decode_ldAInd : decode [0b00001010] = .ok (.ldAMemBC, []) ∧ decode [0b00011010] = .ok (.ldAMemDE, []) :=
  ⟨rfl, rfl⟩
theorem test_decode_ldIndA : decode [0b00000010] = .ok (.ldMemBCA, []) ∧ decode [0b00010010] = .ok (.ldMemDEA, []) :=
  ⟨rfl, rfl⟩
theorem test_decode_inc : decode [0b00011100] = .ok (.incE, []) := rfl
theorem test_decode_dec : decode [0b00101101] = .ok (.decL, []) := rfl
theorem test_decode_addHL : decode [0b00011001] = .ok (.addHLDE, []) := rfl
theorem test_decode_jp : decode [0b11000011, 0x34, 0x12] = .ok (.jp 0x1234, []) := rfl
theorem test_decode_jr : decode [0b00011000, 0x80] = .ok (.jr 0x80, []) := rfl
theorem test_decode_push : decode [0b11100101] = .ok (.pushHL, []) := rfl
theorem test_decode_pop : decode [0b11110001] = .ok (.popAF, []) := rfl
theorem test_decode_rst : decode [0b11101111] = .ok (.rst28, []) := rfl
theorem test_decode_unimplemented : decode [0b01110110] = .ok (.unimplemented 0x76, []) := rfl
theorem test_decode_truncated : decode [] = .error .noOpcode ∧ decode [0xC3, 0x00] = .error (.missingOperand 0xC3) :=
  ⟨rfl, rfl⟩

/-- Vector V73: bytes of the historical set that are not in the table. -/
theorem test_decode_not_in_table :
    [0x34, 0x35, 0x39, 0x31, 0xC9, 0xCD, 0xE9, 0x20, 0x80].all (fun op => !implemented op) = true := by decide

theorem test_tableWord : decodeTableWord 8 0x3E = some (.ldAImm 0) ∧ decodeTableWord 24 0x0200C3 = some (.jp 0x0200) := by
  decide

theorem test_withFetchWord :
    after (step (State.reset.withFetchWord 24 0x0200C3)) (fun t => (t.pc, t.lcc)) = some (0x0200, 12) := by decide

/-! No-op. -/

theorem test_V01 : after (step { codeAt 0x0150 [0x00] with f := 0xF0, sp := 0x1234 }) (fun t => (t.pc, t.f, t.sp)) =
    some (0x0151, 0xF0, 0x1234) := by decide
theorem test_V02 : after (step (codeAt 0xFFFF [0x00])) (·.pc) = some 0x0000 := by decide

/-! Loads. -/

theorem test_V04 : after (step { codeAt 0x0003 [0x47] with a := 0x10, f := 0x20 }) (fun t => (t.b, t.a, t.f, t.pc)) =
    some (0x10, 0x10, 0x20, 0x0004) := by decide
theorem test_V05 : after (step (codeAt 0xFFFF [0x06, 0x77])) (fun t => (t.b, t.pc)) = some (0x77, 0x0001) := by decide
theorem test_V06 : after (step { codeAt 0x0100 [0x5B] with e := 0x5A }) (fun t => (t.e, t.pc)) = some (0x5A, 0x0101) := by
  decide
theorem test_V07 : after (step (codeAt 0 [0x3E, 0x0F])) (fun t => (t.a, t.pc)) = some (0x0F, 0x0002) := by decide
theorem test_V08 :
    after (step { (codeAt 0x0100 [0x66]).write 0xC000 0x12 with h := 0xC0 }) (fun t => (t.h, t.l, t.pc)) =
      some (0x12, 0x00, 0x0101) := by decide
theorem test_V09 : after (step { codeAt 0x0100 [0x74] with h := 0xC0, l := 0x10 }) (fun t => (t.read 0xC010, t.pc)) =
    some (0xC0, 0x0101) := by decide
theorem test_V10 : after (step { codeAt 0x000C [0x36, 0x5A] with h := 0xC0 }) (fun t => (t.read 0xC000, t.pc)) =
    some (0x5A, 0x000E) := by decide
theorem test_V11 :
    after (step { (codeAt 0x0100 [0x0A]).write 0xC123 0x99 with b := 0xC1, c := 0x23 }) (·.a) = some 0x99 := by decide
theorem test_V12 :
    after (step { (codeAt 0x0100 [0x1A]).write 0xFFFF 0x42 with d := 0xFF, e := 0xFF }) (·.a) = some 0x42 := by decide
theorem test_V13 : after (step { codeAt 0x0100 [0x02] with a := 0x7E }) (·.read 0x0000) = some 0x7E := by decide
theorem test_V14 :
    after (step { codeAt 0x0100 [0x12] with a := 0x33, d := 0xD0, e := 0x01 }) (·.read 0xD001) = some 0x33 := by decide
theorem test_V15 : after (step { codeAt 0x0006 [0x77, 0x00, 0x76] with a := 0x04, l := 0x08 }) (fun t => instrAt t 0x0008) =
    some .incB := by decide

/-! Increment and decrement. -/

theorem test_V20 : after (step { codeAt 0 [0x3C] with a := 0xFF, f := 0x10 }) (fun t => (t.a, t.f)) = some (0x00, 0xB0) := by
  decide
theorem test_V22 : after (step { codeAt 0 [0x04] with b := 0x00, f := 0xFF }) (fun t => (t.b, t.f)) = some (0x01, 0x1F) := by
  decide
theorem test_V23 : after (step { codeAt 0 [0x24] with h := 0x7F }) (fun t => (t.h, t.f)) = some (0x80, 0x20) := by decide
theorem test_V24 : after (step (codeAt 0 [0x3D])) (fun t => (t.a, t.f)) = some (0xFF, 0x60) := by decide
theorem test_V25 : after (step { codeAt 0 [0x3D] with a := 0x01, f := 0x10 }) (fun t => (t.a, t.f)) = some (0x00, 0xD0) := by
  decide
theorem test_V26 : after (step { codeAt 0 [0x0D] with c := 0x10, f := 0x0F }) (fun t => (t.c, t.f)) = some (0x0F, 0x6F) := by
  decide
theorem test_V27 : after (step { codeAt 0 [0x2D] with l := 0x80, f := 0x80 }) (fun t => (t.l, t.f)) = some (0x7F, 0x60) := by
  decide
theorem test_S12 : after (step { codeAt 0 [0x2C] with h := 0x12, l := 0xFF }) (·.getPair .hl) = some 0x1200 := by decide

/-! 16-bit add. -/

theorem test_V30 : after (step { codeAt 0 [0x09] with h := 0x0F, l := 0xFF, c := 0x01, f := 0x80 })
    (fun t => (t.getPair .hl, t.f)) = some (0x1000, 0xA0) := by decide
theorem test_V31 : after (step { codeAt 0 [0x19] with h := 0xFF, l := 0xFF, e := 0x01 })
    (fun t => (t.getPair .hl, t.f)) = some (0x0000, 0x30) := by decide
theorem test_V32 : after (step { codeAt 0 [0x19] with h := 0xF0, d := 0x10, f := 0xF0 })
    (fun t => (t.getPair .hl, t.f)) = some (0x0000, 0x90) := by decide
theorem test_V33 : after (step { codeAt 0 [0x29] with h := 0x88, f := 0x40 })
    (fun t => (t.getPair .hl, t.f)) = some (0x1000, 0x30) := by decide
theorem test_V34 : after (step { codeAt 0 [0x09] with h := 0x8A, l := 0x23, b := 0x06, c := 0x05 })
    (fun t => (t.getPair .hl, t.f)) = some (0x9028, 0x20) := by decide

/-! Jumps. -/

theorem test_V41 : after (step (codeAt 0xFFFE [0xC3, 0x34, 0x12])) (fun t => (t.pc, t.lcc)) = some (0x1234, 12) := by decide
theorem test_V42 : after (step (codeAt 0xFFFF [0xC3, 0x34, 0x12])) (·.pc) = some 0x1234 := by decide
theorem test_V43 : after (step (codeAt 0x0000 [0x18, 0x80])) (·.pc) = some 0xFF82 := by decide
theorem test_V44 : after (step (codeAt 0xFFF0 [0x18, 0x7F])) (·.pc) = some 0x0071 := by decide

/-! Stack. -/

theorem test_V50 : after (step { codeAt 0x0100 [0xC5] with b := 0xBE, c := 0xEF, sp := 0x0001 })
    (fun t => (t.sp, t.read 0xFFFF, t.read 0x0000)) = some (0xFFFF, 0xEF, 0xBE) := by decide
theorem test_V51 : after (step { codeAt 0x0100 [0xF5] with a := 0x12, f := 0x3F })
    (fun t => (t.sp, t.read 0xFFFE, t.read 0xFFFF)) = some (0xFFFE, 0x3F, 0x12) := by decide
theorem test_V52 : after (step { ((codeAt 0x0100 [0xF1]).write 0xFFFF 0xAB).write 0x0000 0xCD with sp := 0xFFFF })
    (fun t => (t.a, t.f, t.sp)) = some (0xCD, 0xAB, 0x0001) := by decide
theorem test_V54 : after (step { ((codeAt 0x0100 [0xD1]).write 0xCFFE 0xEF).write 0xCFFF 0xBE with sp := 0xCFFE })
    (fun t => (t.d, t.e, t.sp)) = some (0xBE, 0xEF, 0xD000) := by decide
theorem test_V55 : after (step { codeAt 0x0100 [0xE1] with h := 0x11, sp := 0x8000 }) (fun t => (t.getPair .hl, t.sp)) =
    some (0x0000, 0x8002) := by decide

/-! Fixed-vector call. -/

theorem test_V60 : after (step { (codeAt 0xFFFF [0xFF]).write 0xCFFF 0x55 with sp := 0xD000 })
    (fun t => (t.read 0xCFFF, t.read 0xCFFE, t.sp, t.pc)) = some (0x00, 0x00, 0xCFFE, 0x0038) := by decide
theorem test_V61 : after (step { codeAt 0x0150 [0xEF] with sp := 0xD000 })
    (fun t => (t.read 0xCFFF, t.read 0xCFFE, t.sp, t.pc)) = some (0x01, 0x51, 0xCFFE, 0x0028) := by decide
theorem test_V63 : [0xC7, 0xCF, 0xD7, 0xDF, 0xE7, 0xEF, 0xF7, 0xFF].map (fun op => after (step (codeAt 0x1000 [op])) (·.pc)) =
    [0x0000, 0x0008, 0x0010, 0x0018, 0x0020, 0x0028, 0x0030, 0x0038].map some := by decide

/-! Unimplemented opcode. -/

theorem test_V70 : after (step { codeAt 0x0123 [0xD3] with a := 0x05, lcc := 8 })
    (fun t => (t.status, t.fop, t.fpc, t.pc, t.a, t.lcc)) = some (.faulted, 0xD3, 0x0123, 0x0123, 0x05, 8) := by decide
theorem test_V70_diagnostic : after (step (codeAt 0x0123 [0xD3])) (·.diagnostic) = some (some (0xD3, 0x0123)) := by decide
theorem test_V74 : step { codeAt 0 [0x00] with status := .faulted } = .fault .coreFaulted := rfl

/-! Launch (95_test_vectors.md S8). -/

theorem test_S8 : after (launch Config.resetZero [0xC3, 0x00, 0x02]) (fun t => (t.read 0, t.read 1, t.read 2, t.read 3)) =
    some (0xC3, 0x00, 0x02, 0x00) := by decide

/-! Witnesses: for each statement with hypotheses, a state and operands that meet them all. -/

theorem witness_DecodeOfEncode : (Instr.jp 0xFFFF).wellFormed = true ∧ (Instr.unimplemented 0xFE).wellFormed = true := by
  decide
theorem witness_EncodeOfDecode : decode [0xC3, 0x00, 0x02, 0x99] = .ok (.jp 0x0200, [0x99]) := rfl
theorem witness_OpcodeAloneFixesLength :
    ([] : List Byte).length = (decodeEntry 0xFF).operandLength ∧ [0xFF].length = (decodeEntry 0x36).operandLength ∧
    [0xFF, 0xFF].length = (decodeEntry 0xC3).operandLength := ⟨rfl, rfl, rfl⟩
theorem witness_UnimplementedBytes : implemented 0xFE = false ∧ implemented 0xFF = true := by decide
theorem witness_StepRunsTheDecodedInstruction :
    let s := codeAt 0xFFFF [0x18, 0xFE]
    s.status = .running ∧ decode [s.read s.pc, s.read (s.pc + 1), s.read (s.pc + 2)] = .ok (.jr 0xFE, [0x00]) :=
  ⟨rfl, rfl⟩
theorem witness_StepOfRunningCoreCompletes : State.reset.status = .running := rfl
theorem witness_FaultedCoreHasNoStep :
    ({ State.reset with status := .faulted } : State).status = .faulted ∧ (List.replicate 65536 (0 : Byte)).length ≤ 65536 :=
  ⟨rfl, List.length_replicate.le⟩
theorem witness_FaultsExactlyOnUnimplementedByte :
    (codeAt 0 [0x76]).status = .running ∧ implemented ((codeAt 0 [0x76]).read 0) = false ∧
    implemented ((codeAt 0 [0x77]).read 0) = true := by decide
theorem witness_UnimplementedStepLatches :
    (codeAt 0xFFFF [0xD3]).status = .running ∧ implemented ((codeAt 0xFFFF [0xD3]).read 0xFFFF) = false := by decide
theorem witness_StepReportsItsOwnCost :
    (codeAt 0 [0xC3]).status = .running ∧ implemented ((codeAt 0 [0xC3]).read (codeAt 0 [0xC3]).pc) = true ∧
    implemented ((codeAt 0 [0xCB]).read (codeAt 0 [0xCB]).pc) = false := by decide
theorem witness_NopOnlyAdvances : State.reset.status = .running ∧ State.reset.read State.reset.pc = 0x00 := by decide
theorem witness_LoadRegisterImmediate :
    (codeAt 0xFFFF [0x3E]).status = .running ∧ (codeAt 0xFFFF [0x3E]).read 0xFFFF = 0b00#2 ++ OpReg.a.code ++ 0b110#3 := by
  decide
theorem witness_StoreImmediateToMemory :
    let s := { codeAt 0xFFFE [0x36, 0x5A] with h := 0xFF, l := 0xFF }
    s.status = .running ∧ Memory.wf s.mem ∧ s.read s.pc = 0x36 ∧ wordOf s.h s.l = s.pc + 1 := by decide
theorem witness_AbsoluteJump : (codeAt 0xFFFF [0xC3]).status = .running ∧ (codeAt 0xFFFF [0xC3]).read 0xFFFF = 0xC3 := by
  decide
theorem witness_RelativeJump : (codeAt 0xFFFF [0x18]).status = .running ∧ (codeAt 0xFFFF [0x18]).read 0xFFFF = 0x18 := by
  decide
theorem witness_PopPair : Pair.af = .af ∧ Pair.hl ≠ .af := by decide
theorem witness_PushPopRoundTrip : Memory.wf (codeAt 0 [0xC5, 0xD1]).mem := by decide
theorem witness_FrameOfLoadsToRegisters_register :
    ∃ t, Instr.ldBC = Instr.ldRegReg .b .c ∧ exec .ldBC (codeAt 0 [0x41]) = .next t := ⟨_, rfl, rfl⟩
theorem witness_FrameOfLoadsToRegisters_immediate :
    ∃ t, Instr.ldBImm 0xFF = Instr.ldRegImm .b 0xFF ∧ exec (.ldBImm 0xFF) (codeAt 0 [0x06]) = .next t := ⟨_, rfl, rfl⟩
theorem witness_FrameOfLoadsToRegisters_memory :
    ∃ t, Instr.ldHMemHL = Instr.ldRegMem .h ∧ exec .ldHMemHL (codeAt 0 [0x66]) = .next t := ⟨_, rfl, rfl⟩
theorem witness_FrameOfLoadsToRegisters_pair :
    ∃ t, Instr.ldAMemDE = Instr.ldAInd .de ∧ OpReg.a = .a ∧ exec .ldAMemDE (codeAt 0 [0x1A]) = .next t :=
  ⟨_, rfl, rfl, rfl⟩
theorem witness_FrameOfLoadsToMemory_register :
    ∃ t, Memory.wf (codeAt 0 [0x70]).mem ∧ Instr.ldMemHLB = Instr.ldMemReg .b ∧ (codeAt 0 [0x70]).x .b = 0x00 ∧
      exec .ldMemHLB (codeAt 0 [0x70]) = .next t := ⟨_, by decide, rfl, rfl, rfl⟩
theorem witness_FrameOfLoadsToMemory_immediate :
    ∃ t, Memory.wf State.reset.mem ∧ exec (.ldMemHLImm 0xFF) State.reset = .next t := ⟨_, by decide, rfl⟩
theorem witness_FrameOfLoadsToMemory_pair :
    ∃ t, Memory.wf State.reset.mem ∧ Instr.ldMemBCA = Instr.ldIndA .bc ∧ exec .ldMemBCA State.reset = .next t :=
  ⟨_, by decide, rfl, rfl⟩
theorem witness_FrameOfIncrementDecrement :
    ∃ t u, Instr.incH = Instr.inc .h ∧ exec .incH State.reset = .next t ∧
      Instr.decA = Instr.dec .a ∧ exec .decA State.reset = .next u := ⟨_, _, rfl, rfl, rfl, rfl⟩
theorem witness_FrameOfAdd16 : ∃ t, exec (Instr.addHL .hl) { State.reset with h := 0x88 } = .next t := ⟨_, rfl⟩
theorem witness_FrameOfNopAndJumps :
    ∃ t u v, exec .nop State.reset = .next t ∧ exec (.jp 0xFFFF) State.reset = .next u ∧
      exec (.jr 0x80) State.reset = .next v := ⟨_, _, _, rfl, rfl, rfl⟩
theorem witness_FrameOfPushAndCall :
    ∃ t u, Memory.wf State.reset.mem ∧ exec (Instr.push .af) State.reset = .next t ∧
      exec (Instr.rst 7) State.reset = .next u := ⟨_, _, by decide, rfl, rfl⟩
theorem witness_FrameOfPop : ∃ t, exec (Instr.pop .af) { State.reset with sp := 0xFFFF } = .next t := ⟨_, rfl⟩
theorem witness_OnlyListedBytesMatter :
    Memory.wf State.reset.mem ∧ (0x0001 : Word) ∉ dataReads .ldAMemBC State.reset ∧
    (0x0001 : Word) ∉ dataWrites .ldAMemBC State.reset := by decide
theorem witness_FlagsNeverSteer : Instr.popAF ≠ .pushAF := by decide
theorem witness_OnlyFlagInstructionsWriteF :
    (∀ r, Instr.pushAF ≠ Instr.inc r) ∧ (∀ r, Instr.pushAF ≠ Instr.dec r) ∧ (∀ p, Instr.pushAF ≠ Instr.addHL p) ∧
    Instr.pushAF ≠ .popAF := by
  refine ⟨?_, ?_, ?_, by decide⟩ <;> intro r <;> cases r <;> decide
theorem witness_OnlyStackInstructionsWriteSP :
    (∀ q, Instr.nop ≠ Instr.push q) ∧ (∀ q, Instr.nop ≠ Instr.pop q) ∧ (∀ ttt, Instr.nop ≠ Instr.rst ttt) := by
  refine ⟨?_, ?_, by decide⟩ <;> intro r <;> cases r <;> decide
theorem witness_StraightLineAdvance :
    (∀ nn, Instr.ldAImm 0xFF ≠ .jp nn) ∧ (∀ e, Instr.ldAImm 0xFF ≠ .jr e) ∧ (∀ ttt, Instr.ldAImm 0xFF ≠ Instr.rst ttt) ∧
    (∀ op, Instr.ldAImm 0xFF ≠ .unimplemented op) :=
  ⟨by simp, by simp, by decide, by simp⟩
theorem witness_ControlRegistersUnreachable : ∀ op, Instr.rst38 ≠ .unimplemented op := by simp
theorem witness_StoreIsSeenByNextFetch :
    let s := { codeAt 0xFFFF [0x77] with a := 0x3C }
    Memory.wf s.mem ∧ s.status = .running ∧ s.getPair .hl = s.pc + 1 ∧ decodeEntry (s.x .a) = .bare .incA :=
  ⟨by decide, rfl, rfl, rfl⟩
theorem witness_FlagWriteTouchesOneBit : Flag.cf ≠ Flag.z := by decide
theorem witness_MemoryWriteReadsBack : Memory.wf (codeAt 0xFFFF [0x01, 0x02]).mem := by decide
theorem witness_EqualMemoriesAreEqualData :
    Memory.wf (codeAt 5 [1]).mem ∧ Memory.wf ((codeAt 5 [1]).write 6 0).mem ∧
    ∀ addr : Word, (codeAt 5 [1]).read addr = ((codeAt 5 [1]).write 6 0).read addr := ⟨by decide, by decide, fun _ => rfl⟩
theorem witness_LaunchState : (List.replicate 65536 (0xFF : Byte)).length ≤ 65536 :=
  List.length_replicate.le
theorem witness_LongImageIsRefused : (List.replicate 65537 (0x00 : Byte)).length > 65536 := by
  rw [List.length_replicate]
  decide
theorem witness_StepKeepsInvariant :
    ∃ t, Inv (codeAt 0xFFFF [0x3C]) ∧ step (codeAt 0xFFFF [0x3C]) = .next t :=
  ⟨_, ⟨by decide, .inl rfl, fun h => absurd h (by decide), fun _ => ⟨rfl, rfl⟩⟩, rfl⟩
theorem witness_LaunchMeetsInvariant : ∃ t, launch Config.resetZero [0x00, 0x18, 0xFD] = .next t := ⟨_, rfl⟩

end Sys2Proof.Tests
end

/-! The frames of the implemented instructions (00_scope.md R9) and the limits of their costs. Each family's next state is
one of a few shapes: one update of the state, then `pc` set, then the cost reported. The frame of each shape is shown
once; an obligation's proof says which shape its instructions have. -/

namespace Sys2Proof.Machine

/-! Bits of F that a flag write keeps. -/

/-- A flag write keeps every bit outside its mask (10_state.md R17). -/
theorem putFlag_and_of_disjoint {fl : Flag} {m : Byte} (h : flagMask fl &&& m = 0) (f : Byte) (b : Bool) :
    putFlag f fl b &&& m = f &&& m := by
  have hkeep : ~~~flagMask fl &&& m = m := by
    ext j hj
    have hbit : (flagMask fl &&& m)[j] = false := by simp [h]
    rw [BitVec.getElem_and] at hbit
    rw [BitVec.getElem_and, BitVec.getElem_not]
    cases hm : m[j]
    · simp
    · simpa [hm] using hbit
  have hset : (if b then flagMask fl else 0) &&& m = 0 := by
    cases b
    · simp
    · simpa using h
  rw [putFlag, BitVec.and_or_distrib_right, BitVec.and_assoc, hkeep, hset]
  simp

/-- INC writes Z, N and Hf only (10_state.md R19). -/
theorem incF_and_keeps_carry_unused (f v : Byte) : incF f v &&& 0x1F = f &&& 0x1F := by
  simp (disch := decide) only [incF, putFlag_and_of_disjoint]

/-- DEC writes Z, N and Hf only (10_state.md R19). -/
theorem decF_and_keeps_carry_unused (f v : Byte) : decF f v &&& 0x1F = f &&& 0x1F := by
  simp (disch := decide) only [decF, putFlag_and_of_disjoint]

/-- ADD writes N, Hf and Cf only (10_state.md R19, 92_eei_decisions.md D16). -/
theorem addF_and_keeps_zero_unused (f : Byte) (a b : Word) : addF f a b &&& 0x8F = f &&& 0x8F := by
  simp (disch := decide) only [addF, putFlag_and_of_disjoint]

/-! The frame of each shape of next state. -/

/-- Setting `pc` and reporting the cost leaves everything else (10_state.md R21, 40_dispatch.md R83). -/
theorem frame_setPC_report (s : State) (w : Word) (op : Byte) :
    SameRegsExcept [] s ((s.setPC w).report op) ∧ SameControl s ((s.setPC w).report op) ∧
      SameBytesExcept [] s ((s.setPC w).report op) :=
  ⟨fun r _ => by simp, ⟨rfl, rfl, rfl, rfl⟩, fun _ _ => rfl⟩

/-- A write of one coded register keeps F too, which no code names (10_state.md R11, R12). -/
theorem frame_setX_setPC_report (s : State) (dst : OpReg) (v : Byte) (w : Word) (op : Byte) :
    let t := ((s.setX dst v).setPC w).report op
    SameRegsExcept [opReg dst] s t ∧ t.f = s.f ∧ SameControl s t ∧ SameBytesExcept [] s t := by
  refine ⟨fun r hr => ?_, by simp, by simp [SameControl], fun addr _ => by simp⟩
  have hne : r ≠ opReg dst := by simpa using hr
  simp [State.getReg_setX, hne]

/-- A write of one coded register and of F, of which Carry and F[3:0] are kept (42_incdec8.md R100, R101). -/
theorem frame_setX_setF_setPC_report {s : State} {f : Byte} (hf : f &&& 0x1F = s.f &&& 0x1F) (r : OpReg) (v : Byte)
    (w : Word) (op : Byte) :
    let t := (((s.setX r v).setReg .f f).setPC w).report op
    SameRegsExcept [opReg r, .f] s t ∧ t.f &&& 0x1F = s.f &&& 0x1F ∧ SameControl s t ∧ SameBytesExcept [] s t := by
  refine ⟨fun r' hr' => ?_, by simpa using hf, by simp [SameControl], fun addr _ => by simp⟩
  obtain ⟨hne, hnef⟩ : r' ≠ opReg r ∧ r' ≠ .f := by simpa using hr'
  simp [State.getReg_setReg, State.getReg_setX, hne, hnef]

/-- A store of one byte (20_memory.md R42). -/
theorem frame_write_setPC_report {s : State} (hwf : Memory.wf s.mem) (addr w : Word) (v op : Byte) :
    let t := ((s.write addr v).setPC w).report op
    SameRegsExcept [] s t ∧ SameControl s t ∧ t.read addr = v ∧ SameBytesExcept [addr] s t := by
  refine ⟨fun r _ => by simp, by simp [SameControl], ?_, fun addr' h' => ?_⟩
  · simpa using State.read_write_same hwf
  · have hne : addr' ≠ addr := by simpa using h'
    simpa using State.read_write_other hwf hne

/-- A push: the high byte goes to the old `sp` less 1, the low byte below it (45_stack.md R115). -/
theorem frame_pushWord_setPC_report {s : State} (hwf : Memory.wf s.mem) (word w : Word) (op : Byte) :
    let t := ((s.pushWord word).setPC w).report op
    SameRegsExcept [] s t ∧ t.sp = s.sp - 2 ∧ t.status = s.status ∧ t.fop = s.fop ∧ t.fpc = s.fpc ∧
      t.read (s.sp - 1) = hiByte word ∧ t.read (s.sp - 2) = loByte word ∧
      SameBytesExcept [s.sp - 1, s.sp - 2] s t := by
  refine ⟨fun r _ => by simp, rfl, rfl, rfl, rfl, ?_, ?_, fun addr h => ?_⟩
  · exact (State.read_pushWord hwf _).trans ((if_neg (sub_one_ne_sub_two s.sp)).trans (if_pos rfl))
  · exact (State.read_pushWord hwf _).trans (if_pos rfl)
  · obtain ⟨hhi, hlo⟩ : addr ≠ s.sp - 1 ∧ addr ≠ s.sp - 2 := by simpa using h
    exact (State.read_pushWord hwf addr).trans ((if_neg hlo).trans (if_neg hhi))

end Sys2Proof.Machine

namespace Sys2Proof.Proofs

open Sys2Proof Sys2Proof.Machine

/-! The obligations. -/

/-- Settles O35: the next state of every such load is a write of `dst`, whatever the source of the byte. -/
theorem frameOfLoadsToRegisters : Obligations.FrameOfLoadsToRegisters := by
  intro i dst s t hi h
  obtain ⟨v, w, op, hexec⟩ : ∃ v w op, exec i s = .next (((s.setX dst v).setPC w).report op) := by
    rcases hi with ⟨src, rfl⟩ | ⟨n, rfl⟩ | rfl | ⟨p, rfl, rfl⟩
    · exact ⟨_, _, _, (exec_ldRegReg dst src s).trans (loadRegReg_eq _ _ _ _)⟩
    · exact ⟨_, _, _, (exec_ldRegImm dst n s).trans (loadRegImm_eq _ _ _ _)⟩
    · exact ⟨_, _, _, (exec_ldRegMem dst s).trans (loadRegMem_eq _ _ _ _)⟩
    · exact ⟨_, _, _, (exec_ldAInd p s).trans (loadRegMem_eq _ _ _ _)⟩
  obtain rfl := Host.Outcome.next.inj (h.symm.trans hexec)
  exact frame_setX_setPC_report s dst v w op

/-- Settles O36: the next state of every such load is a store of `v` at the pair's address. -/
theorem frameOfLoadsToMemory : Obligations.FrameOfLoadsToMemory := by
  intro i addr v s t hwf hi h
  obtain ⟨w, op, hexec⟩ : ∃ w op, exec i s = .next (((s.write (s.getPair addr) v).setPC w).report op) := by
    rcases hi with ⟨src, rfl, rfl, rfl⟩ | ⟨rfl, rfl⟩ | ⟨p, rfl, rfl, rfl⟩
    · exact ⟨_, _, (exec_ldMemReg src s).trans (storeReg_eq _ _ _ _)⟩
    · exact ⟨_, _, (exec_ldMemImm v s).trans (storeImm_eq _ _ _ _)⟩
    · exact ⟨_, _, (exec_ldIndA p s).trans (storeReg_eq _ _ _ _)⟩
  obtain rfl := Host.Outcome.next.inj (h.symm.trans hexec)
  exact frame_write_setPC_report hwf (s.getPair addr) w v op

/-- Settles O37: the next state is a write of `r` and of F, and the flag computation keeps Carry and F[3:0]. -/
theorem frameOfIncrementDecrement : Obligations.FrameOfIncrementDecrement := by
  intro i r s t hi h
  obtain ⟨v, f, w, op, hf, hexec⟩ : ∃ v f w op, f &&& 0x1F = s.f &&& 0x1F ∧
      exec i s = .next ((((s.setX r v).setReg .f f).setPC w).report op) := by
    rcases hi with rfl | rfl
    · exact ⟨_, _, _, _, by rw [incF_and_keeps_carry_unused, State.setX_f], (exec_inc r s).trans (incReg_eq _ _ _)⟩
    · exact ⟨_, _, _, _, by rw [decF_and_keeps_carry_unused, State.setX_f], (exec_dec r s).trans (decReg_eq _ _ _)⟩
  obtain rfl := Host.Outcome.next.inj (h.symm.trans hexec)
  exact frame_setX_setF_setPC_report hf r v w op

/-- Settles O38: the pair written is HL, and the flag computation keeps Z and F[3:0]. -/
theorem frameOfAdd16 : Obligations.FrameOfAdd16 := by
  intro p s t h
  rw [exec_addHL, addToHL_eq] at h
  obtain rfl := Host.Outcome.next.inj h
  refine ⟨fun r hr => ?_, ?_, by simp [SameControl], fun addr _ => by simp⟩
  · obtain ⟨hh, hl, hf⟩ : r ≠ .h ∧ r ≠ .l ∧ r ≠ .f := by simpa using hr
    simp [State.getReg_addFlags, State.getReg_setPair, pairHi, pairLo, hh, hl, hf]
  · simpa [pairHi, pairLo] using addF_and_keeps_zero_unused s.f (s.getPair .hl) (s.getPair (addPair p))

/-- Settles O39: nothing but `pc` and `lcc` is written. -/
theorem frameOfNopAndJumps : Obligations.FrameOfNopAndJumps := by
  intro i s t hi h
  obtain ⟨w, op, hexec⟩ : ∃ w op, exec i s = .next ((s.setPC w).report op) := by
    rcases hi with rfl | ⟨nn, rfl⟩ | ⟨e, rfl⟩
    · exact ⟨_, _, exec_nop s⟩
    · exact ⟨_, _, exec_jp nn s⟩
    · exact ⟨_, _, exec_jr e s⟩
  obtain rfl := Host.Outcome.next.inj (h.symm.trans hexec)
  exact frame_setPC_report s w op

/-- Settles O40: PUSH and RST both push `w`, by the same operation. -/
theorem frameOfPushAndCall : Obligations.FrameOfPushAndCall := by
  intro i w s t hwf hi h
  obtain ⟨target, op, hexec⟩ : ∃ target op, exec i s = .next (((s.pushWord w).setPC target).report op) := by
    rcases hi with ⟨q, rfl, rfl⟩ | ⟨ttt, rfl, rfl⟩
    · exact ⟨_, _, (exec_push q s).trans (pushPair_eq _ _ _)⟩
    · exact ⟨_, _, (exec_rst ttt s).trans (restart_eq _ _ _)⟩
  obtain rfl := Host.Outcome.next.inj (h.symm.trans hexec)
  exact frame_pushWord_setPC_report hwf w target op

/-- Settles O41: the two registers written are the pair's. -/
theorem frameOfPop : Obligations.FrameOfPop := by
  intro q s t h
  rw [exec_pop, popPair_eq] at h
  obtain rfl := Host.Outcome.next.inj h
  refine ⟨fun r hr => ?_, by simp, by simp, by simp, by simp, fun addr _ => by simp⟩
  obtain ⟨hhi, hlo⟩ : r ≠ pairHi q ∧ r ≠ pairLo q := by simpa using hr
  simp [State.getReg_setPair, hhi, hlo]

/-- The reference table has an entry for the implemented bytes and no other (70_reset_and_hazards.md R160). -/
theorem costRef_isSome (op : Byte) : (Config.costRef op).isSome = implemented op := by
  revert op
  decide +kernel

/-- No entry of the reference table is 0 (70_reset_and_hazards.md R160). -/
theorem costRef_ne_zero (op : Byte) : Config.costRef op ≠ some 0 := by
  have hrows : ∀ row ∈ Config.costRefRows, row.2 ≠ 0 := by decide
  intro h
  obtain ⟨row, hfind, hzero⟩ := Option.map_eq_some_iff.mp h
  exact hrows row (List.mem_of_find?_eq_some hfind) hzero

/-- Settles O14: the limits hold of the free costs by their type, and of the reference table row by row. -/
theorem costsMeetTheirLimits : Obligations.CostsMeetTheirLimits :=
  ⟨cost_jp, by decide, fun op => ⟨cost_pos op, costRef_isSome op, costRef_ne_zero op⟩⟩

end Sys2Proof.Proofs

/-! The whole state (10_state.md): registers, pairs, flags and memory as data, what an instruction may reach, and the
invariant. An instruction's next state is written once per family; the statements about every instruction follow by the
case principle `Instr.byFamily`. -/

namespace Sys2Proof

/-- The instruction of a table entry, given the two bytes after the opcode. -/
def Entry.complete : Entry → Byte → Byte → Instr
  | .bare i, _, _ => i
  | .imm8 make, lo, _ => make lo
  | .imm16 make, lo, hi => make (wordOf hi lo)

/-- An entry of the decode table makes instructions of its own opcode (30_encoding.md R60). -/
theorem opcode_complete (op lo hi : Byte) : ((decodeEntry op).complete lo hi).opcode = op := by
  unfold decodeEntry
  split <;> rfl

/-- The table makes well-formed instructions only: its last row takes just the bytes outside the list of R66
(30_encoding.md R66, R68). -/
theorem wellFormed_complete (op lo hi : Byte) : ((decodeEntry op).complete lo hi).wellFormed = true := by
  unfold decodeEntry
  split
  case h_112 => simp_all [Entry.complete, Instr.wellFormed, implemented, implementedBytes, registerCodes]
  all_goals rfl

end Sys2Proof

namespace Sys2Proof.Machine

/-! The next state of every family: one update of the state, then `pc` set, then the cost of its own opcode reported. -/

@[simp] theorem exec_nop_next (s : State) : exec .nop s = .next ((s.setPC (s.pc + 1)).report Instr.nop.opcode) := rfl

@[simp] theorem exec_ldRegReg_next (dst src : OpReg) (s : State) :
    exec (Instr.ldRegReg dst src) s =
      .next (((s.setX dst (s.x src)).setPC (s.pc + 1)).report (Instr.ldRegReg dst src).opcode) :=
  (exec_ldRegReg dst src s).trans (loadRegReg_eq _ _ _ _)

@[simp] theorem exec_ldRegImm_next (dst : OpReg) (n : Byte) (s : State) :
    exec (Instr.ldRegImm dst n) s = .next (((s.setX dst n).setPC (s.pc + 2)).report (Instr.ldRegImm dst n).opcode) :=
  (exec_ldRegImm dst n s).trans (loadRegImm_eq _ _ _ _)

@[simp] theorem exec_ldRegMem_next (dst : OpReg) (s : State) :
    exec (Instr.ldRegMem dst) s =
      .next (((s.setX dst (s.read (s.getPair .hl))).setPC (s.pc + 1)).report (Instr.ldRegMem dst).opcode) :=
  (exec_ldRegMem dst s).trans (loadRegMem_eq _ _ _ _)

@[simp] theorem exec_ldMemReg_next (r : OpReg) (s : State) :
    exec (Instr.ldMemReg r) s =
      .next (((s.write (s.getPair .hl) (s.x r)).setPC (s.pc + 1)).report (Instr.ldMemReg r).opcode) :=
  (exec_ldMemReg r s).trans (storeReg_eq _ _ _ _)

@[simp] theorem exec_ldMemImm_next (n : Byte) (s : State) :
    exec (.ldMemHLImm n) s =
      .next (((s.write (s.getPair .hl) n).setPC (s.pc + 2)).report (Instr.ldMemHLImm n).opcode) :=
  (exec_ldMemImm n s).trans (storeImm_eq _ _ _ _)

@[simp] theorem exec_ldAInd_next (p : IndPair) (s : State) :
    exec (Instr.ldAInd p) s =
      .next (((s.setX .a (s.read (s.getPair (indPair p)))).setPC (s.pc + 1)).report (Instr.ldAInd p).opcode) :=
  (exec_ldAInd p s).trans (loadRegMem_eq _ _ _ _)

@[simp] theorem exec_ldIndA_next (p : IndPair) (s : State) :
    exec (Instr.ldIndA p) s =
      .next (((s.write (s.getPair (indPair p)) (s.x .a)).setPC (s.pc + 1)).report (Instr.ldIndA p).opcode) :=
  (exec_ldIndA p s).trans (storeReg_eq _ _ _ _)

@[simp] theorem exec_inc_next (r : OpReg) (s : State) :
    exec (Instr.inc r) s =
      .next ((((s.setX r (s.x r + 1)).incFlags (s.x r)).setPC (s.pc + 1)).report (Instr.inc r).opcode) :=
  (exec_inc r s).trans (incReg_eq _ _ _)

@[simp] theorem exec_dec_next (r : OpReg) (s : State) :
    exec (Instr.dec r) s =
      .next ((((s.setX r (s.x r - 1)).decFlags (s.x r)).setPC (s.pc + 1)).report (Instr.dec r).opcode) :=
  (exec_dec r s).trans (decReg_eq _ _ _)

@[simp] theorem exec_addHL_next (p : AddPair) (s : State) :
    exec (Instr.addHL p) s =
      .next ((((s.setPair .hl (s.getPair .hl + s.getPair (addPair p))).addFlags (s.getPair .hl)
        (s.getPair (addPair p))).setPC (s.pc + 1)).report (Instr.addHL p).opcode) :=
  (exec_addHL p s).trans (addToHL_eq _ _ _)

@[simp] theorem exec_jp_next (nn : Word) (s : State) :
    exec (.jp nn) s = .next ((s.setPC nn).report (Instr.jp nn).opcode) := rfl

@[simp] theorem exec_jr_next (e : Byte) (s : State) :
    exec (.jr e) s = .next ((s.setPC (relativeTarget s.pc e)).report (Instr.jr e).opcode) := rfl

@[simp] theorem exec_push_next (q : Pair) (s : State) :
    exec (Instr.push q) s =
      .next (((s.pushWord (s.getPair q)).setPC (s.pc + 1)).report (Instr.push q).opcode) :=
  (exec_push q s).trans (pushPair_eq _ _ _)

@[simp] theorem exec_pop_next (q : Pair) (s : State) :
    exec (Instr.pop q) s =
      .next ((((s.setPair q s.topWord).setSP (s.sp + 2)).setPC (s.pc + 1)).report (Instr.pop q).opcode) :=
  (exec_pop q s).trans (popPair_eq _ _ _)

@[simp] theorem exec_rst_next (ttt : Fin 8) (s : State) :
    exec (Instr.rst ttt) s =
      .next (((s.pushWord (s.pc + 1)).setPC (vectorAddress (BitVec.ofFin ttt))).report (Instr.rst ttt).opcode) :=
  (exec_rst ttt s).trans (restart_eq _ _ _)

@[simp] theorem exec_unimplemented_next (op : Byte) (s : State) :
    exec (.unimplemented op) s = .next (s.raiseUnimplementedOpcode op s.pc) := exec_unimplemented op s

/-- Every instruction completes and keeps the canonical form of the memory: it writes no byte, one, or the two of a
push. -/
theorem exec_keeps_wf (i : Instr) {s : State} (hwf : Memory.wf s.mem) :
    ∃ t, exec i s = .next t ∧ Memory.wf t.mem := by
  induction i using Instr.byFamily with
  | ldMemReg r => exact ⟨_, exec_ldMemReg_next r s, State.wf_write hwf⟩
  | ldMemImm n => exact ⟨_, exec_ldMemImm_next n s, State.wf_write hwf⟩
  | ldIndA p => exact ⟨_, exec_ldIndA_next p s, State.wf_write hwf⟩
  | push q => exact ⟨_, exec_push_next q s, State.wf_pushWord hwf⟩
  | rst ttt => exact ⟨_, exec_rst_next ttt s, State.wf_pushWord hwf⟩
  | _ => simpa using hwf

/-! Fetch: which instruction the bytes at an address make. -/

theorem instrAt_eq_complete (s : State) (addr : Word) :
    instrAt s addr = (decodeEntry (s.read addr)).complete (s.read (addr + 1)) (s.read (addr + 2)) := by
  unfold instrAt
  cases decodeEntry (s.read addr) <;> rfl

/-- The fetched instruction has the byte at its address as its opcode. -/
theorem opcode_instrAt (s : State) (addr : Word) : (instrAt s addr).opcode = s.read addr := by
  rw [instrAt_eq_complete, opcode_complete]

/-- What is fetched is well formed. -/
theorem wellFormed_instrAt (s : State) (addr : Word) : (instrAt s addr).wellFormed = true := by
  rw [instrAt_eq_complete, wellFormed_complete]

theorem instrAt_of_not_implemented {s : State} {addr : Word} (h : implemented (s.read addr) = false) :
    instrAt s addr = .unimplemented (s.read addr) := by
  rw [instrAt_eq_complete, decodeEntry_of_not_implemented h, Entry.complete]

theorem instrAt_ne_unimplemented {s : State} {addr : Word} (h : implemented (s.read addr) = true) (op : Byte) :
    instrAt s addr ≠ .unimplemented op := by
  intro hi
  have hop := opcode_instrAt s addr
  have hwf := wellFormed_instrAt s addr
  rw [hi] at hop hwf
  obtain rfl : op = s.read addr := hop
  simp [Instr.wellFormed, h] at hwf

/-- The step of a running core is the meaning of the instruction at `pc` (40_dispatch.md R80). -/
theorem step_running {s : State} (h : s.status = .running) : step s = exec (instrAt s s.pc) s := by
  rw [step, fetchInstr_running h]

/-- The step of a running core at an unimplemented byte takes the condition (60_exceptions.md R131). -/
theorem step_of_not_implemented {s : State} (h : s.status = .running) (hop : implemented (s.read s.pc) = false) :
    step s = .next (s.raiseUnimplementedOpcode (s.read s.pc) s.pc) := by
  rw [step_running h, instrAt_of_not_implemented hop, exec_unimplemented]

/-- A Faulted core has no step (60_exceptions.md R133). -/
theorem step_faulted {s : State} (h : s.status = .faulted) : step s = .fault .coreFaulted := by
  rw [step, fetchInstr_faulted h]

/-! The control registers as one part of the state: no update of an instruction reads them, and only the report writes
one of them (10_state.md R25, R26). -/

/-- `s` with other control registers. -/
def State.withControl (s : State) (status : Status) (fop : Byte) (fpc : Word) (lcc : Byte) : State :=
  { s with status := status, fop := fop, fpc := fpc, lcc := lcc }

section Control

variable (s : State) (status : Status) (fop : Byte) (fpc : Word) (lcc : Byte)

@[simp] theorem State.withControl_pc : (s.withControl status fop fpc lcc).pc = s.pc := rfl
@[simp] theorem State.withControl_sp : (s.withControl status fop fpc lcc).sp = s.sp := rfl
@[simp] theorem State.withControl_read (addr : Word) : (s.withControl status fop fpc lcc).read addr = s.read addr := rfl
@[simp] theorem State.withControl_topWord : (s.withControl status fop fpc lcc).topWord = s.topWord := rfl
@[simp] theorem State.withControl_x (r : OpReg) : (s.withControl status fop fpc lcc).x r = s.x r := by cases r <;> rfl
@[simp] theorem State.withControl_getPair (p : Pair) : (s.withControl status fop fpc lcc).getPair p = s.getPair p := by
  cases p <;> rfl
@[simp] theorem State.setX_withControl (r : OpReg) (v : Byte) :
    (s.withControl status fop fpc lcc).setX r v = (s.setX r v).withControl status fop fpc lcc := by cases r <;> rfl
@[simp] theorem State.setPair_withControl (p : Pair) (w : Word) :
    (s.withControl status fop fpc lcc).setPair p w = (s.setPair p w).withControl status fop fpc lcc := by
  cases p <;> rfl
@[simp] theorem State.write_withControl (addr : Word) (v : Byte) :
    (s.withControl status fop fpc lcc).write addr v = (s.write addr v).withControl status fop fpc lcc := rfl
@[simp] theorem State.pushWord_withControl (w : Word) :
    (s.withControl status fop fpc lcc).pushWord w = (s.pushWord w).withControl status fop fpc lcc := rfl
@[simp] theorem State.incFlags_withControl (v : Byte) :
    (s.withControl status fop fpc lcc).incFlags v = (s.incFlags v).withControl status fop fpc lcc := rfl
@[simp] theorem State.decFlags_withControl (v : Byte) :
    (s.withControl status fop fpc lcc).decFlags v = (s.decFlags v).withControl status fop fpc lcc := rfl
@[simp] theorem State.addFlags_withControl (v w : Word) :
    (s.withControl status fop fpc lcc).addFlags v w = (s.addFlags v w).withControl status fop fpc lcc := rfl
@[simp] theorem State.setSP_withControl (w : Word) :
    (s.withControl status fop fpc lcc).setSP w = (s.setSP w).withControl status fop fpc lcc := rfl
@[simp] theorem State.setPC_withControl (w : Word) :
    (s.withControl status fop fpc lcc).setPC w = (s.setPC w).withControl status fop fpc lcc := rfl
/-- The report is the one update that does not keep `lcc`, and it does not read it. -/
@[simp] theorem State.report_withControl (op : Byte) :
    (s.withControl status fop fpc lcc).report op = (s.report op).withControl status fop fpc (Config.cost op) := rfl

end Control

/-! F as one part of the state: only the flag updates and the pair AF read it (10_state.md R19). -/

section OtherF

variable (s : State) (v : Byte)

@[simp] theorem State.setReg_topWord (r : Reg) : (s.setReg r v).topWord = s.topWord := by simp [State.topWord]
@[simp] theorem State.setF_x (r : OpReg) : (s.setReg .f v).x r = s.x r := by cases r <;> rfl
theorem State.setF_getPair {p : Pair} (h : p ≠ .af) : (s.setReg .f v).getPair p = s.getPair p := by
  cases p with
  | af => exact absurd rfl h
  | bc | de | hl => rfl
@[simp] theorem State.setF_getPair_hl : (s.setReg .f v).getPair .hl = s.getPair .hl := rfl
@[simp] theorem State.setF_getPair_indPair (p : IndPair) :
    (s.setReg .f v).getPair (indPair p) = s.getPair (indPair p) := by cases p <;> rfl
@[simp] theorem State.setF_getPair_addPair (p : AddPair) :
    (s.setReg .f v).getPair (addPair p) = s.getPair (addPair p) := by cases p <;> rfl
@[simp] theorem State.setX_setF (r : OpReg) (b : Byte) : (s.setReg .f v).setX r b = (s.setX r b).setReg .f v := by
  cases r <;> rfl
@[simp] theorem State.write_setF (addr : Word) (b : Byte) :
    (s.setReg .f v).write addr b = (s.write addr b).setReg .f v := rfl
@[simp] theorem State.pushWord_setF (w : Word) : (s.setReg .f v).pushWord w = (s.pushWord w).setReg .f v := rfl
@[simp] theorem State.incFlags_setF (b : Byte) :
    (s.setReg .f v).incFlags b = (s.incFlags b).setReg .f (incF v b) := rfl
@[simp] theorem State.decFlags_setF (b : Byte) :
    (s.setReg .f v).decFlags b = (s.decFlags b).setReg .f (decF v b) := rfl
@[simp] theorem State.addFlags_setF (a b : Word) :
    (s.setReg .f v).addFlags a b = (s.addFlags a b).setReg .f (addF v a b) := rfl
@[simp] theorem State.setSP_setF (w : Word) : (s.setReg .f v).setSP w = (s.setSP w).setReg .f v := rfl
@[simp] theorem State.setPC_setF (w : Word) : (s.setReg .f v).setPC w = (s.setPC w).setReg .f v := rfl
@[simp] theorem State.report_setF (op : Byte) : (s.setReg .f v).report op = (s.report op).setReg .f v := rfl
@[simp] theorem State.raiseUnimplementedOpcode_setF (op : Byte) (w : Word) :
    (s.setReg .f v).raiseUnimplementedOpcode op w = (s.raiseUnimplementedOpcode op w).setReg .f v := rfl
/-- A pair write keeps the other F, or overwrites both alike. -/
@[simp] theorem State.setPair_setF (p : Pair) (w : Word) :
    (s.setReg .f v).setPair p w = (s.setPair p w).setReg .f (if p = .af then loByte w else v) := by cases p <;> rfl
@[simp] theorem State.setF_inj (w : Byte) : s.setReg .f v = s.setReg .f w ↔ v = w :=
  ⟨fun h => by simpa using congrArg State.f h, fun h => h ▸ rfl⟩

end OtherF

/-! The lengths of the straight-line encodings (30_encoding.md R60). -/

@[simp] theorem length_encode_ldRegReg (dst src : OpReg) : (encode (Instr.ldRegReg dst src)).length = 1 := by
  cases dst <;> cases src <;> rfl
@[simp] theorem length_encode_ldRegImm (dst : OpReg) (n : Byte) : (encode (Instr.ldRegImm dst n)).length = 2 := by
  cases dst <;> rfl
@[simp] theorem length_encode_ldRegMem (dst : OpReg) : (encode (Instr.ldRegMem dst)).length = 1 := by cases dst <;> rfl
@[simp] theorem length_encode_ldMemReg (r : OpReg) : (encode (Instr.ldMemReg r)).length = 1 := by cases r <;> rfl
@[simp] theorem length_encode_ldAInd (p : IndPair) : (encode (Instr.ldAInd p)).length = 1 := by cases p <;> rfl
@[simp] theorem length_encode_ldIndA (p : IndPair) : (encode (Instr.ldIndA p)).length = 1 := by cases p <;> rfl
@[simp] theorem length_encode_inc (r : OpReg) : (encode (Instr.inc r)).length = 1 := by cases r <;> rfl
@[simp] theorem length_encode_dec (r : OpReg) : (encode (Instr.dec r)).length = 1 := by cases r <;> rfl
@[simp] theorem length_encode_addHL (p : AddPair) : (encode (Instr.addHL p)).length = 1 := by cases p <;> rfl
@[simp] theorem length_encode_push (q : Pair) : (encode (Instr.push q)).length = 1 := by cases q <;> rfl
@[simp] theorem length_encode_pop (q : Pair) : (encode (Instr.pop q)).length = 1 := by cases q <;> rfl

/-! The halves of a word, and a flag's bit of F. -/

theorem toNat_hiByte (w : Word) : (hiByte w).toNat = w.toNat / 256 := by
  have hw : w.toNat / 256 < 256 := by omega
  simpa [hiByte, Nat.shiftRight_eq_div_pow] using hw

theorem toNat_loByte (w : Word) : (loByte w).toNat = w.toNat % 256 := by simp [loByte]

theorem pairLo_ne_pairHi (p : Pair) : pairLo p ≠ pairHi p := by cases p <;> decide

/-- R17 in its own words: `(F & ~mask) | (b << bit)`. -/
theorem putFlag_eq (f : Byte) (fl : Flag) (b : Bool) :
    putFlag f fl b = f &&& ~~~flagMask fl ||| (BitVec.ofBool b).setWidth 8 <<< flagBit fl := by
  cases b <;> cases fl <;> rfl

/-! Launch. -/

/-- A launch that completes answers the initial state with the image in its memory (70_reset_and_hazards.md R150). -/
theorem launch_eq (r : Config.ResetValues) {image : List Byte} (h : image.length ≤ 65536) :
    launch r image = .next { State.initial r with mem := ((State.initial r).writeBytes 0 image).mem } := by
  rw [launch, if_pos h, ← State.writeBytes_eq]

/-- Memory before the image is copied reads 0x00 everywhere. -/
theorem State.read_initial (r : Config.ResetValues) (addr : Word) : (State.initial r).read addr = 0x00 := rfl

/-- After the copy, memory reads the image from address 0 and 0x00 past its end (70_reset_and_hazards.md R151). -/
theorem State.read_image (r : Config.ResetValues) {image : List Byte} (h : image.length ≤ 65536) (addr : Word) :
    ((State.initial r).writeBytes 0 image).read addr = image.getD addr.toNat 0x00 := by
  have hsub : addr - 0 = addr := by simp
  by_cases hlt : addr.toNat < image.length
  · rw [State.read_writeBytes (State.wf_initial r) h (by rwa [hsub])]
    simp [hlt]
  · rw [State.read_writeBytes_other (State.wf_initial r) (by rw [hsub]; omega), State.read_initial]
    simp [Nat.le_of_not_lt hlt]

end Sys2Proof.Machine

namespace Sys2Proof.Proofs

open Sys2Proof Sys2Proof.Machine

/-! The obligations. -/

/-- Settles O47: every update of every family commutes with other control registers. -/
theorem controlRegistersUnreachable : Obligations.ControlRegistersUnreachable := by
  intro i s status fop fpc lcc hi
  show ∃ t, exec i s = .next t ∧
    t.status = s.status ∧ t.fop = s.fop ∧ t.fpc = s.fpc ∧ t.lcc = Config.cost i.opcode ∧
    exec i (s.withControl status fop fpc lcc) = .next (t.withControl status fop fpc t.lcc)
  induction i using Instr.byFamily with
  | unimplemented op => exact absurd rfl (hi op)
  | _ => simp

/-- Settles O10: an unimplemented byte makes the core Faulted, and an implemented one leaves `status` alone. -/
theorem faultsExactlyOnUnimplementedByte : Obligations.FaultsExactlyOnUnimplementedByte := by
  intro s hrun
  cases hop : implemented (s.read s.pc) with
  | false => exact ⟨_, step_of_not_implemented hrun hop, by simp⟩
  | true =>
    obtain ⟨t, hexec, hstatus, -⟩ := controlRegistersUnreachable _ s .running 0 0 0 (instrAt_ne_unimplemented hop)
    exact ⟨t, (step_running hrun).trans hexec, by simp [hstatus, hrun]⟩

/-- Settles O56: a Faulted core has no step; a running one either takes the condition, with the latch naming the byte at
the kept `pc`, or executes an implemented instruction, which reports its own cost and keeps the latch. -/
theorem stepKeepsInvariant : Obligations.StepKeepsInvariant := by
  intro s t ⟨hwf, hreported, _, hclear⟩ h
  cases hst : s.status with
  | faulted => rw [step_faulted hst] at h; cases h
  | running =>
    cases hop : implemented (s.read s.pc) with
    | false =>
      rw [step_of_not_implemented hst hop] at h
      obtain rfl := Host.Outcome.next.inj h
      exact ⟨hwf, hreported, fun _ => ⟨rfl, rfl, hop⟩, by simp⟩
    | true =>
      obtain ⟨t', hexec, hwf'⟩ := exec_keeps_wf (instrAt s s.pc) hwf
      obtain rfl := Host.Outcome.next.inj (h.symm.trans ((step_running hst).trans hexec))
      obtain ⟨t', hexec', hstatus, hfop, hfpc, hlcc, -⟩ :=
        controlRegistersUnreachable _ s .running 0 0 0 (instrAt_ne_unimplemented hop)
      obtain rfl := Host.Outcome.next.inj (hexec.symm.trans hexec')
      refine ⟨hwf', .inr ⟨s.read s.pc, hop, ?_⟩, ?_, fun _ => ?_⟩
      · rw [hlcc, opcode_instrAt]
      · simp [hstatus, hst]
      · rw [hfop, hfpc]
        exact hclear hst

/-- Settles O43: F is read by the flag updates, which write F alone, and as half of AF, which PUSH AF alone reads. -/
theorem flagsNeverSteer : Obligations.FlagsNeverSteer := by
  intro i s v hi
  show ∃ t, exec i s = .next t ∧ ∃ w, exec i (s.setReg .f v) = .next (t.setReg .f w)
  induction i using Instr.byFamily with
  | push q =>
    have hq : q ≠ .af := fun h => hi (h ▸ rfl)
    simp [State.setF_getPair s v hq]
  | _ => simp

/-- Settles O44: of the families that are left, only POP writes a pair, and not AF. -/
theorem onlyFlagInstructionsWriteF : Obligations.OnlyFlagInstructionsWriteF := by
  intro i s hinc hdec hadd hpop
  induction i using Instr.byFamily with
  | inc r => exact absurd rfl (hinc r)
  | dec r => exact absurd rfl (hdec r)
  | addHL p => exact absurd rfl (hadd p)
  | pop q =>
    cases q with
    | af => exact absurd rfl hpop
    | bc | de | hl => simp [pairHi, pairLo]
  | _ => simp

/-- Settles O45: no update but a push and `setSP` writes `sp`. -/
theorem onlyStackInstructionsWriteSP : Obligations.OnlyStackInstructionsWriteSP := by
  intro i s hpush hpop hrst
  induction i using Instr.byFamily with
  | push q => exact absurd rfl (hpush q)
  | pop q => exact absurd rfl (hpop q)
  | rst ttt => exact absurd rfl (hrst ttt)
  | _ => simp

/-- Settles O46: `pc` advances by 2 in the families with an operand byte and by 1 in the others. -/
theorem straightLineAdvance : Obligations.StraightLineAdvance := by
  intro i s hjp hjr hrst hun
  induction i using Instr.byFamily with
  | jp nn => exact absurd rfl (hjp nn)
  | jr e => exact absurd rfl (hjr e)
  | rst ttt => exact absurd rfl (hrst ttt)
  | unimplemented op => exact absurd rfl (hun op)
  | nop | ldMemImm n => exact ⟨_, rfl, rfl⟩
  | _ => simp

/-- Settles O50: a word is its two bytes, and the two registers of a pair differ. -/
theorem pairWriteReadsBack : Obligations.PairWriteReadsBack := by
  intro s p w
  refine ⟨State.getPair_setPair s p w, ?_, ?_, toNat_wordOf _ _, fun r hr => ?_⟩
  · rw [State.getReg_setPair, if_pos rfl, toNat_hiByte]
  · rw [State.getReg_setPair, if_neg (pairLo_ne_pairHi p), if_pos rfl, toNat_loByte]
  · obtain ⟨hhi, hlo⟩ : r ≠ pairHi p ∧ r ≠ pairLo p := by simpa using hr
    rw [State.getReg_setPair, if_neg hhi, if_neg hlo]

/-- Settles O51: a flag write is R17's formula, whose masks are disjoint. -/
theorem flagWriteTouchesOneBit : Obligations.FlagWriteTouchesOneBit := by
  intro s fl b
  refine ⟨rfl, rfl, rfl, rfl, putFlag_eq s.f .z b, putFlag_eq s.f .n b, putFlag_eq s.f .hf b, putFlag_eq s.f .cf b,
    ?_, fun fl' hne => ?_, unused_putFlag s.f fl b, rfl⟩
  · rw [State.getFlag_setFlag, if_pos rfl]
  · rw [State.getFlag_setFlag, if_neg hne]

/-- Settles O53: the canonical form lists no address from 65536 up, so the words are all there is to read. -/
theorem equalMemoriesAreEqualData : Obligations.EqualMemoriesAreEqualData := by
  intro s t hs ht h
  refine Memory.eq_of_read_eq hs ht fun addr ha => ?_
  simpa [State.read, Nat.mod_eq_of_lt ha] using h (BitVec.ofNat 16 addr)

/-- Settles O54: the copy of the image writes memory alone. -/
theorem launchState : Obligations.LaunchState := by
  intro s r image hlen
  exact ⟨_, launch_eq r hlen, rfl, rfl, rfl, rfl, rfl, rfl, rfl, rfl, rfl, rfl, rfl, rfl, rfl, rfl,
    State.read_image r hlen⟩

/-- Settles O58: a launch that completes is the initial state with an image, and a running core needs no latch. -/
theorem launchMeetsInvariant : Obligations.LaunchMeetsInvariant := by
  intro r image t h
  by_cases hlen : image.length ≤ 65536
  · rw [launch_eq r hlen] at h
    obtain rfl := Host.Outcome.next.inj h
    exact ⟨State.wf_writeBytes (State.wf_initial r), .inl rfl, nofun, fun _ => ⟨rfl, rfl⟩⟩
  · simp [launch, hlen] at h

/-- Settles O49: registers are separate fields of the state. -/
theorem registerWriteReadsBack : Obligations.RegisterWriteReadsBack := by
  intro s r v
  refine ⟨State.getReg_setReg_same s r v, fun r' hr' => ?_, by simp, by simp, by simp [SameControl], by simp⟩
  rw [State.getReg_setReg, if_neg (by simpa using hr')]

/-- Settles O57: `State.reset` is the launch with the empty image. -/
theorem resetMeetsInvariant : Obligations.ResetMeetsInvariant :=
  launchMeetsInvariant Config.resetZero [] State.reset rfl

end Sys2Proof.Proofs

/-! Data memory (20_memory.md): the bytes an instruction reads and writes. A byte changed beforehand commutes with every
update that neither reads nor writes it. -/

namespace Sys2Proof.Machine

/-! The data columns of 20_memory.md R54, family by family. -/

@[simp] theorem dataReads_ldRegMem (dst : OpReg) (s : State) : dataReads (Instr.ldRegMem dst) s = [s.getPair .hl] := by
  cases dst <;> rfl
@[simp] theorem dataReads_ldAInd (p : IndPair) (s : State) :
    dataReads (Instr.ldAInd p) s = [s.getPair (indPair p)] := by cases p <;> rfl
@[simp] theorem dataReads_pop (q : Pair) (s : State) : dataReads (Instr.pop q) s = [s.sp, s.sp + 1] := by
  cases q <;> rfl
@[simp] theorem dataWrites_ldMemReg (r : OpReg) (s : State) : dataWrites (Instr.ldMemReg r) s = [s.getPair .hl] := by
  cases r <;> rfl
@[simp] theorem dataWrites_ldMemImm (n : Byte) (s : State) : dataWrites (.ldMemHLImm n) s = [s.getPair .hl] := rfl
@[simp] theorem dataWrites_ldIndA (p : IndPair) (s : State) :
    dataWrites (Instr.ldIndA p) s = [s.getPair (indPair p)] := by cases p <;> rfl
@[simp] theorem dataWrites_push (q : Pair) (s : State) : dataWrites (Instr.push q) s = [s.sp - 1, s.sp - 2] := by
  cases q <;> rfl
@[simp] theorem dataWrites_rst (ttt : Fin 8) (s : State) : dataWrites (Instr.rst ttt) s = [s.sp - 1, s.sp - 2] := by
  match ttt with
  | 0 | 1 | 2 | 3 | 4 | 5 | 6 | 7 => rfl

/-! A byte written before an update that is not about memory is as good as written after it. These are not tagged for
`simp`: they would undo the form `exec_ldMemReg_next` gives a store, with `setPC` and `report` outermost. -/

section ByteBefore

variable (s : State) (addr : Word) (v : Byte)

theorem State.setX_write (r : OpReg) (b : Byte) : (s.write addr v).setX r b = (s.setX r b).write addr v := by
  cases r <;> rfl
theorem State.setPair_write (p : Pair) (w : Word) : (s.write addr v).setPair p w = (s.setPair p w).write addr v := by
  cases p <;> rfl
theorem State.incFlags_write (b : Byte) : (s.write addr v).incFlags b = (s.incFlags b).write addr v := rfl
theorem State.decFlags_write (b : Byte) : (s.write addr v).decFlags b = (s.decFlags b).write addr v := rfl
theorem State.addFlags_write (a b : Word) : (s.write addr v).addFlags a b = (s.addFlags a b).write addr v := rfl
theorem State.setSP_write (w : Word) : (s.write addr v).setSP w = (s.setSP w).write addr v := rfl
theorem State.setPC_write (w : Word) : (s.write addr v).setPC w = (s.setPC w).write addr v := rfl
theorem State.report_write (op : Byte) : (s.write addr v).report op = (s.report op).write addr v := rfl
theorem State.raiseUnimplementedOpcode_write (op : Byte) (w : Word) :
    (s.write addr v).raiseUnimplementedOpcode op w = (s.raiseUnimplementedOpcode op w).write addr v := rfl

end ByteBefore

/-! The updates that are about memory, and a byte they do not reach. -/

section OtherByte

variable {s : State} {addr : Word} (hwf : Memory.wf s.mem) (v : Byte)
include hwf

/-- The top of the stack is the bytes at `sp` and `sp + 1` alone (45_stack.md R116). -/
theorem State.topWord_write_other (hlo : addr ≠ s.sp) (hhi : addr ≠ s.sp + 1) :
    (s.write addr v).topWord = s.topWord := by
  rw [State.topWord, State.topWord, State.write_sp, State.read_write_other hwf hhi.symm,
    State.read_write_other hwf hlo.symm]

/-- A push writes the bytes at the old `sp` less 1 and less 2 alone (45_stack.md R115). -/
theorem State.pushWord_write_other (w : Word) (hhi : addr ≠ s.sp - 1) (hlo : addr ≠ s.sp - 2) :
    (s.write addr v).pushWord w = (s.pushWord w).write addr v := by
  have hmem : ((s.write addr v).write (s.sp - 1) (hiByte w)).write (s.sp - 2) (loByte w) =
      ((s.write (s.sp - 1) (hiByte w)).write (s.sp - 2) (loByte w)).write addr v := by
    rw [State.write_comm hwf hhi, State.write_comm (State.wf_write hwf) hlo]
  rw [State.pushWord_eq, State.pushWord_eq, State.write_sp, hmem]
  rfl

/-- The next state of a store at `a`: every other byte is left, and is not used. -/
theorem other_byte_of_store {a : Word} (hne : addr ≠ a) (b : Byte) (w : Word) (op : Byte) :
    let t := ((s.write a b).setPC w).report op
    t.read addr = s.read addr ∧ (((s.write addr v).write a b).setPC w).report op = t.write addr v := by
  refine ⟨State.read_write_other hwf hne, ?_⟩
  rw [State.write_comm hwf hne]
  rfl

/-- The next state of a push: every byte but the two pushed ones is left, and is not used. -/
theorem other_byte_of_push (hhi : addr ≠ s.sp - 1) (hlo : addr ≠ s.sp - 2) (word w : Word) (op : Byte) :
    let t := ((s.pushWord word).setPC w).report op
    t.read addr = s.read addr ∧ (((s.write addr v).pushWord word).setPC w).report op = t.write addr v := by
  refine ⟨(State.read_pushWord hwf addr).trans ((if_neg hlo).trans (if_neg hhi)), ?_⟩
  rw [State.pushWord_write_other hwf v word hhi hlo]
  rfl

end OtherByte

end Sys2Proof.Machine

namespace Sys2Proof.Proofs

open Sys2Proof Sys2Proof.Machine

/-! The obligations. -/

/-- Settles O42: the stores and the pushes leave the other bytes and do not use them; the loads from memory and the pops
read listed bytes only, and they and all the rest update nothing in memory. -/
theorem onlyListedBytesMatter : Obligations.OnlyListedBytesMatter := by
  intro i s addr v hwf hreads hwrites
  induction i using Instr.byFamily with
  | ldMemReg r =>
    have hne : addr ≠ s.getPair .hl := by simpa using hwrites
    simpa using other_byte_of_store hwf v hne _ _ _
  | ldMemImm n =>
    have hne : addr ≠ s.getPair .hl := by simpa using hwrites
    simpa using other_byte_of_store hwf v hne _ _ _
  | ldIndA p =>
    have hne : addr ≠ s.getPair (indPair p) := by simpa using hwrites
    simpa using other_byte_of_store hwf v hne _ _ _
  | push q =>
    obtain ⟨hhi, hlo⟩ : addr ≠ s.sp - 1 ∧ addr ≠ s.sp - 2 := by simpa using hwrites
    simpa using other_byte_of_push hwf v hhi hlo _ _ _
  | rst ttt =>
    obtain ⟨hhi, hlo⟩ : addr ≠ s.sp - 1 ∧ addr ≠ s.sp - 2 := by simpa using hwrites
    simpa using other_byte_of_push hwf v hhi hlo _ _ _
  | ldRegMem dst =>
    have hne : s.getPair .hl ≠ addr := by simpa [eq_comm] using hreads
    simp [State.read_write_other hwf hne, State.setX_write, State.setPC_write, State.report_write]
  | ldAInd p =>
    have hne : s.getPair (indPair p) ≠ addr := by simpa [eq_comm] using hreads
    simp [State.read_write_other hwf hne, State.setX_write, State.setPC_write, State.report_write]
  | pop q =>
    obtain ⟨hlo, hhi⟩ : addr ≠ s.sp ∧ addr ≠ s.sp + 1 := by simpa using hreads
    simp [State.topWord_write_other hwf v hlo hhi, State.setPair_write, State.setSP_write, State.setPC_write,
      State.report_write]
  | _ =>
    simp [State.setX_write, State.setPair_write, State.incFlags_write, State.decFlags_write, State.addFlags_write,
      State.setPC_write, State.report_write, State.raiseUnimplementedOpcode_write]

/-- Settles O48: the store keeps the core running and moves `pc` to the stored byte, whose entry takes no operand. -/
theorem storeIsSeenByNextFetch : Obligations.StoreIsSeenByNextFetch := by
  intro src s i hwf hrun hpc hentry
  obtain ⟨t, hexec, hstatus, htpc, hread⟩ : ∃ t, exec (Instr.ldMemReg src) s = .next t ∧
      t.status = .running ∧ t.pc = s.getPair .hl ∧ t.read (s.getPair .hl) = s.x src :=
    ⟨_, exec_ldMemReg_next src s, hrun, hpc.symm, State.read_write_same hwf⟩
  rw [← htpc] at hread
  refine ⟨t, hexec, hread, ?_⟩
  rw [step_running hstatus, instrAt_eq_complete, hread, hentry, Entry.complete]

/-- Settles O52: reading after a write of the canonical memory. -/
theorem memoryWriteReadsBack : Obligations.MemoryWriteReadsBack := by
  intro s addr v hwf
  refine ⟨State.read_write_same hwf, fun addr' h => ?_, State.wf_write hwf⟩
  exact State.read_write_other hwf (by simpa using h)

end Sys2Proof.Proofs

/-! Encoding (30_encoding.md). Decoding and encoding meet in the table: a row, completed with two bytes of which it
takes as many as its operand length, is the instruction whose encoding is the row's opcode byte and those bytes. -/

namespace Sys2Proof

/-- The operand bytes an entry takes of the two after its opcode, in the order they are stored. -/
def Entry.operandBytes (entry : Entry) (lo hi : Byte) : List Byte := [lo, hi].take entry.operandLength

/-- As many bytes as the operand length says are the operand bytes of some `lo` and `hi`. -/
theorem Entry.exists_operandBytes {entry : Entry} {operands : List Byte} (h : operands.length = entry.operandLength) :
    ∃ lo hi, entry.operandBytes lo hi = operands := by
  cases entry with
  | bare i => exact ⟨0, 0, (List.eq_nil_of_length_eq_zero h).symm⟩
  | imm8 make =>
    obtain ⟨n, rfl⟩ := List.length_eq_one_iff.mp h
    exact ⟨n, 0, rfl⟩
  | imm16 make =>
    obtain ⟨lo, hi, rfl⟩ := List.length_eq_two.mp h
    exact ⟨lo, hi, rfl⟩

/-- Completing an entry takes its operand bytes and leaves what follows. -/
theorem completeEntry_operandBytes (op : Byte) (entry : Entry) (lo hi : Byte) (rest : List Byte) :
    completeEntry op entry (entry.operandBytes lo hi ++ rest) = .ok (entry.complete lo hi, rest) := by
  cases entry <;> rfl

/-- An entry is completed in no other way: it is refused only where the bytes end. -/
theorem exists_operandBytes_of_completeEntry {op : Byte} {entry : Entry} {bytes rest : List Byte} {i : Instr}
    (h : completeEntry op entry bytes = .ok (i, rest)) :
    ∃ lo hi, entry.complete lo hi = i ∧ entry.operandBytes lo hi ++ rest = bytes := by
  unfold completeEntry at h
  split at h <;> cases h
  case h_1 => exact ⟨0, 0, rfl, rfl⟩
  case h_2 make n => exact ⟨n, 0, rfl, rfl⟩
  case h_3 make lo hi => exact ⟨lo, hi, rfl, rfl⟩

/-- The decoder looks the first byte up in the table and takes the operand bytes of its entry. -/
theorem decode_operandBytes (op lo hi : Byte) (rest : List Byte) :
    decode (op :: ((decodeEntry op).operandBytes lo hi ++ rest)) = .ok ((decodeEntry op).complete lo hi, rest) :=
  completeEntry_operandBytes op (decodeEntry op) lo hi rest

/-- Row by row, the encoder undoes the table (30_encoding.md R63, R66). A 16-bit operand is stored low byte first
(R64). -/
theorem encode_complete (op lo hi : Byte) :
    encode ((decodeEntry op).complete lo hi) = op :: (decodeEntry op).operandBytes lo hi := by
  unfold decodeEntry
  split
  case h_96 => -- `JP nn`, the one row whose operand is assembled from two bytes
    show encode (.jp (wordOf hi lo)) = [0xC3#8, lo, hi]
    rw [encode, loByte_wordOf, hiByte_wordOf]
  all_goals rfl

/-- Every well-formed instruction is made by the row of its own opcode, family by family (30_encoding.md R66). -/
theorem exists_complete_of_wellFormed (i : Instr) (hwf : i.wellFormed = true) :
    ∃ lo hi, (decodeEntry i.opcode).complete lo hi = i := by
  induction i using Instr.byFamily with
  | nop => exact ⟨0, 0, rfl⟩
  | ldRegReg dst src => exact ⟨0, 0, by cases dst <;> cases src <;> rfl⟩
  | ldRegImm dst n => exact ⟨n, 0, by cases dst <;> rfl⟩
  | ldMemImm n | jr n => exact ⟨n, 0, rfl⟩
  | ldRegMem x | ldMemReg x | ldAInd x | ldIndA x | inc x | dec x | addHL x | push x | pop x =>
    exact ⟨0, 0, by cases x <;> rfl⟩
  | jp nn => exact ⟨loByte nn, hiByte nn, congrArg Instr.jp (wordOf_hiByte_loByte nn)⟩
  | rst ttt =>
    refine ⟨0, 0, ?_⟩
    match ttt with
    | 0 | 1 | 2 | 3 | 4 | 5 | 6 | 7 => rfl
  | unimplemented op =>
    have hop : implemented op = false := by simpa [Instr.wellFormed] using hwf
    have hentry : decodeEntry (Instr.unimplemented op).opcode = .bare (.unimplemented op) :=
      decodeEntry_of_not_implemented hop
    exact ⟨0, 0, by rw [hentry, Entry.complete]⟩

/-! The formats as bit fields (30_encoding.md R63), family by family. -/

theorem encode_ldRegReg (dst src : OpReg) : encode (Instr.ldRegReg dst src) = [0b01#2 ++ dst.code ++ src.code] := by
  cases dst <;> cases src <;> rfl
theorem encode_ldRegImm (r : OpReg) (n : Byte) : encode (Instr.ldRegImm r n) = [0b00#2 ++ r.code ++ 0b110#3, n] := by
  cases r <;> rfl
theorem encode_ldRegMem (dst : OpReg) : encode (Instr.ldRegMem dst) = [0b01#2 ++ dst.code ++ 0b110#3] := by
  cases dst <;> rfl
theorem encode_ldMemReg (src : OpReg) : encode (Instr.ldMemReg src) = [0b01#2 ++ 0b110#3 ++ src.code] := by
  cases src <;> rfl
theorem encode_inc (r : OpReg) : encode (Instr.inc r) = [0b00#2 ++ r.code ++ 0b100#3] := by cases r <;> rfl
theorem encode_dec (r : OpReg) : encode (Instr.dec r) = [0b00#2 ++ r.code ++ 0b101#3] := by cases r <;> rfl
theorem encode_addHL (p : AddPair) : encode (Instr.addHL p) = [0b00#2 ++ p.code ++ 0b1001#4] := by cases p <;> rfl
theorem encode_push (q : Pair) : encode (Instr.push q) = [0b11#2 ++ q.code ++ 0b0101#4] := by cases q <;> rfl
theorem encode_pop (q : Pair) : encode (Instr.pop q) = [0b11#2 ++ q.code ++ 0b0001#4] := by cases q <;> rfl
theorem encode_ldIndA (p : IndPair) : encode (Instr.ldIndA p) = [0b000#3 ++ p.code ++ 0b0010#4] := by cases p <;> rfl
theorem encode_ldAInd (p : IndPair) : encode (Instr.ldAInd p) = [0b000#3 ++ p.code ++ 0b1010#4] := by cases p <;> rfl
theorem encode_rst (ttt : Fin 8) :
    encode (Instr.rst ttt) = [0b11#2 ++ (BitVec.ofFin ttt : BitVec 3) ++ 0b111#3] := by
  match ttt with
  | 0 | 1 | 2 | 3 | 4 | 5 | 6 | 7 => rfl

theorem loByte_eq_extractLsb' (w : Word) : loByte w = w.extractLsb' 0 8 := BitVec.setWidth_eq_extractLsb' (by decide)
theorem hiByte_eq_extractLsb' (w : Word) : hiByte w = w.extractLsb' 8 8 := by
  simp [hiByte, BitVec.setWidth_ushiftRight_eq_extractLsb]

theorem encode_jp (nn : Word) : encode (.jp nn) = [0b11000011#8, nn.extractLsb' 0 8, nn.extractLsb' 8 8] := by
  rw [encode, loByte_eq_extractLsb', hiByte_eq_extractLsb']

end Sys2Proof

namespace Sys2Proof.Proofs

open Sys2Proof Sys2Proof.Machine

/-! The obligations. -/

/-- Settles O1: a well-formed instruction is a completed row of the table, and the decoder undoes the encoder's bytes of
such a row. -/
theorem decodeOfEncode : Obligations.DecodeOfEncode := by
  intro i rest hwf
  obtain ⟨lo, hi, hrow⟩ := exists_complete_of_wellFormed i hwf
  rw [← hrow, encode_complete, List.cons_append, decode_operandBytes]

/-- Settles O2: what decodes is a completed row of the table, which is well formed and is encoded as the bytes read. -/
theorem encodeOfDecode : Obligations.EncodeOfDecode := by
  intro bytes i rest h
  cases bytes with
  | nil => cases h
  | cons op bytes =>
    obtain ⟨lo, hi, rfl, rfl⟩ := exists_operandBytes_of_completeEntry h
    exact ⟨wellFormed_complete op lo hi, by rw [encode_complete, List.cons_append]⟩

/-- Settles O3: the row of the opcode is completed by any operand bytes of the right number. -/
theorem opcodeAloneFixesLength : Obligations.OpcodeAloneFixesLength := by
  intro op operands rest h
  obtain ⟨lo, hi, rfl⟩ := Entry.exists_operandBytes h
  exact ⟨_, decode_operandBytes op lo hi rest, encode_complete op lo hi⟩

/-- Settles O4: the format of each family, and the two rows of the table that are unimplemented. -/
theorem formatsAreEncoded : Obligations.FormatsAreEncoded :=
  ⟨rfl, encode_ldRegReg, encode_ldRegMem, encode_ldMemReg, rfl, encode_inc, encode_dec, encode_ldRegImm, fun _ => rfl,
    encode_addHL, rfl, encode_push, encode_pop, encode_ldIndA, encode_ldAInd, encode_rst, encode_jp, fun _ => rfl⟩

/-- Settles O5: an entry that is `unimplemented` is well formed, so its byte is outside the list of R66. -/
theorem unimplementedBytes : Obligations.UnimplementedBytes := by
  intro op
  refine ⟨decodeEntry_of_not_implemented, fun hentry => ?_⟩
  have hwf := wellFormed_complete op 0 0
  rw [hentry] at hwf
  simpa [Entry.complete, Instr.wellFormed] using hwf

/-- Settles O6, by running the decoder on each word. -/
theorem knownWordsDecode : Obligations.KnownWordsDecode :=
  ⟨rfl, rfl, rfl, rfl, rfl, rfl, rfl, rfl, rfl, rfl, rfl, rfl, rfl, rfl, rfl, rfl, rfl⟩

end Sys2Proof.Proofs

/-! The step (40_dispatch.md): dispatch, the report of the cost, and the instructions that only move `pc`. -/

namespace Sys2Proof.Machine

/-- A displacement of -2 leads back to the jump itself (44_jumps.md R111). -/
theorem relativeTarget_neg_two (pc : Word) : relativeTarget pc 0xFE = pc := by
  have hback : sext8 0xFE = -2 := by decide
  rw [relativeTarget, hback, add_neg_cancel_right]

end Sys2Proof.Machine

namespace Sys2Proof.Proofs

open Sys2Proof Sys2Proof.Machine

/-! The obligations. -/

/-- Settles O8: a step at an unimplemented byte and one at an implemented byte both answer a state, as O10 says. -/
theorem stepOfRunningCoreCompletes : Obligations.StepOfRunningCoreCompletes := by
  intro s hrun
  obtain ⟨t, hstep, -⟩ := faultsExactlyOnUnimplementedByte s hrun
  exact ⟨t, hstep⟩

/-- What an implemented instruction answers does not depend on `lcc`, which it writes (40_dispatch.md R83): the part of
O47 about `lcc` alone. -/
theorem exec_setLcc {i : Instr} (hi : ∀ op, i ≠ .unimplemented op) (s : State) (v : Byte) :
    ∃ t, exec i s = .next t ∧ t.lcc = Config.cost i.opcode ∧ exec i { s with lcc := v } = .next t := by
  obtain ⟨t, hexec, hstatus, hfop, hfpc, hlcc, hother⟩ := controlRegistersUnreachable i s s.status s.fop s.fpc v hi
  have hkept : { t with status := s.status, fop := s.fop, fpc := s.fpc } = t := by rw [← hstatus, ← hfop, ← hfpc]
  exact ⟨t, hexec, hlcc, hother.trans (congrArg _ hkept)⟩

/-- Settles O13: an implemented instruction writes `lcc` and does not read it; the condition does neither. -/
theorem stepReportsItsOwnCost : Obligations.StepReportsItsOwnCost := by
  intro s v hrun
  have hrun' : ({ s with lcc := v } : State).status = .running := hrun
  cases hop : implemented (s.read s.pc) with
  | true =>
    obtain ⟨t, hexec, hlcc, hexec'⟩ := exec_setLcc (instrAt_ne_unimplemented hop) s v
    rw [opcode_instrAt] at hlcc
    exact ⟨t, (step_running hrun).trans hexec, fun _ => ⟨hlcc, (step_running hrun').trans hexec'⟩, nofun⟩
  | false =>
    exact ⟨_, step_of_not_implemented hrun hop, nofun, fun _ => ⟨rfl, step_of_not_implemented hrun' hop⟩⟩

/-- Settles O7: the three bytes from `pc` decode to the instruction fetched there. -/
theorem stepRunsTheDecodedInstruction : Obligations.StepRunsTheDecodedInstruction := by
  intro s i rest hrun hdecode
  obtain ⟨rest', hfetched⟩ := decode_fetched s s.pc
  obtain ⟨rfl, -⟩ := Prod.mk.inj (Except.ok.inj (hfetched.symm.trans hdecode))
  exact step_running hrun

/-- Settles O15: at a zero byte the instruction fetched is NOP. -/
theorem nopOnlyAdvances : Obligations.NopOnlyAdvances := by
  refine ⟨rfl, rfl, fun s => ⟨exec_nop_next s, fun hrun hzero => ?_⟩⟩
  have hnop : instrAt s s.pc = .nop := by rw [instrAt_eq_complete, hzero]; rfl
  rw [step_running hrun, hnop]
  exact exec_nop_next s

/-- Settles O30: either jump sets `pc` to what it was, so the report of the cost is its only effect. -/
theorem jumpToItselfCompletes : Obligations.JumpToItselfCompletes := by
  intro s
  refine ⟨?_, exec_jp_next s.pc s⟩
  rw [exec_jr_next, relativeTarget_neg_two]
  rfl

end Sys2Proof.Proofs

/-! The 8-bit loads (41_loads.md): each family's opcode and reference cost as bit fields, and its next state. -/

namespace Sys2Proof

/-- The opcode is the first byte of the encoding (30_encoding.md R60). -/
theorem Instr.opcode_of_encode {i : Instr} {op : Byte} {operands : List Byte} (h : encode i = op :: operands) :
    i.opcode = op := by
  rw [Instr.opcode, h, List.headD_cons]

/-- The row of `LD r,n` takes its immediate from the byte after the opcode (41_loads.md R91). -/
theorem complete_ldRegImm (dst : OpReg) (n hi : Byte) :
    (decodeEntry (0b00#2 ++ dst.code ++ 0b110#3)).complete n hi = Instr.ldRegImm dst n := by
  cases dst <;> rfl

/-! Reference costs (70_reset_and_hazards.md R160). -/

theorem costRef_ldRegReg (dst src : OpReg) : Config.costRef (0b01#2 ++ dst.code ++ src.code) = some 4 := by
  cases dst <;> cases src <;> rfl
theorem costRef_ldRegImm (dst : OpReg) : Config.costRef (0b00#2 ++ dst.code ++ 0b110#3) = some 8 := by
  cases dst <;> rfl
theorem costRef_ldRegMem (dst : OpReg) : Config.costRef (0b01#2 ++ dst.code ++ 0b110#3) = some 8 := by
  cases dst <;> rfl
theorem costRef_ldMemReg (src : OpReg) : Config.costRef (0b01#2 ++ 0b110#3 ++ src.code) = some 8 := by
  cases src <;> rfl

end Sys2Proof

namespace Sys2Proof.Machine

/-- Storing at an address the byte it already holds changes nothing: the canonical form lists a byte in one way only
(20_memory.md R42). -/
theorem State.write_read_self {s : State} (hwf : Memory.wf s.mem) (addr : Word) : s.write addr (s.read addr) = s := by
  have hmem : (s.write addr (s.read addr)).mem = s.mem := by
    refine Memory.eq_of_read_eq (State.wf_write hwf) hwf fun x _ => ?_
    by_cases hx : x = addr.toNat
    · subst hx
      exact State.read_write_same hwf
    · exact Memory.read_write_other hwf hx
  exact congrArg (fun m => { s with mem := m }) hmem

/-- At its opcode, `LD r,n` is fetched with the byte after `pc`, the address wrapping (41_loads.md R91). -/
theorem instrAt_ldRegImm {s : State} {addr : Word} {dst : OpReg} (h : s.read addr = 0b00#2 ++ dst.code ++ 0b110#3) :
    instrAt s addr = Instr.ldRegImm dst (s.read (addr + 1)) := by
  rw [instrAt_eq_complete, h, complete_ldRegImm]

/-- At byte 0x36, `LD (HL),n` is fetched with the byte after `pc` (41_loads.md R94). -/
theorem instrAt_ldMemImm {s : State} {addr : Word} (h : s.read addr = 0x36) :
    instrAt s addr = .ldMemHLImm (s.read (addr + 1)) := by
  rw [instrAt_eq_complete, h]
  rfl

end Sys2Proof.Machine

namespace Sys2Proof.Proofs

open Sys2Proof Sys2Proof.Machine

/-! The obligations. -/

/-- Settles O16: the next state of the family, whose opcode byte is its format. -/
theorem loadRegisterFromRegister : Obligations.LoadRegisterFromRegister := by
  intro dst src s
  refine ⟨encode_ldRegReg dst src, costRef_ldRegReg dst src, ?_⟩
  rw [exec_ldRegReg_next, Instr.opcode_of_encode (encode_ldRegReg dst src)]
  rfl

/-- Settles O17: the next state of the family, and what a running core fetches at its opcode. -/
theorem loadRegisterImmediate : Obligations.LoadRegisterImmediate := by
  intro dst n s
  refine ⟨encode_ldRegImm dst n, costRef_ldRegImm dst, ?_, fun hrun hop => ?_⟩
  · rw [exec_ldRegImm_next, Instr.opcode_of_encode (encode_ldRegImm dst n)]
    rfl
  · rw [step_running hrun, instrAt_ldRegImm hop]

/-- Settles O18: the byte is read at HL as it was, and then written to the register. -/
theorem loadRegisterFromMemory : Obligations.LoadRegisterFromMemory := by
  intro dst s
  refine ⟨encode_ldRegMem dst, costRef_ldRegMem dst, ?_⟩
  rw [exec_ldRegMem_next, Instr.opcode_of_encode (encode_ldRegMem dst)]
  rfl

/-- Settles O19: the next state of the family; the byte with 6 in both register fields has an unimplemented row. -/
theorem storeRegisterToMemory : Obligations.StoreRegisterToMemory := by
  refine ⟨rfl, fun src s => ⟨encode_ldMemReg src, costRef_ldMemReg src, ?_⟩⟩
  rw [exec_ldMemReg_next, Instr.opcode_of_encode (encode_ldMemReg src)]
  rfl

/-- Settles O20: the operand is read before the store, so a store onto the operand writes the byte that is there. -/
theorem storeImmediateToMemory : Obligations.StoreImmediateToMemory := by
  intro n s
  refine ⟨rfl, rfl, exec_ldMemImm_next n s, fun hrun hwf hop haddr => ?_⟩
  have hself : s.write (s.getPair .hl) (s.read (s.pc + 1)) = s := by
    rw [show s.getPair .hl = s.pc + 1 from haddr, State.write_read_self hwf]
  rw [step_running hrun, instrAt_ldMemImm hop, exec_ldMemImm_next, hself]
  rfl

/-- Settles O21: the next state of `LD A,(pp)` at either pair. -/
theorem loadAThroughPair : Obligations.LoadAThroughPair :=
  ⟨rfl, rfl, rfl, rfl, fun s => ⟨exec_ldAInd_next .bc s, exec_ldAInd_next .de s⟩⟩

/-- Settles O22: the next state of `LD (pp),A` at either pair. -/
theorem storeAThroughPair : Obligations.StoreAThroughPair :=
  ⟨rfl, rfl, rfl, rfl, fun s => ⟨exec_ldIndA_next .bc s, exec_ldIndA_next .de s⟩⟩

end Sys2Proof.Proofs

/-! 8-bit increment and decrement (42_incdec8.md): the reference costs, and the flag conditions of R100 and R101 as
conditions on the operand. -/

namespace Sys2Proof

theorem costRef_inc (r : OpReg) : Config.costRef (0b00#2 ++ r.code ++ 0b100#3) = some 4 := by cases r <;> rfl
theorem costRef_dec (r : OpReg) : Config.costRef (0b00#2 ++ r.code ++ 0b101#3) = some 4 := by cases r <;> rfl

end Sys2Proof

namespace Sys2Proof.Machine

/-- An increment wraps to 0 from 0xFF alone (42_incdec8.md R100). -/
theorem add_one_eq_zero_iff (v : Byte) : v + 1 = 0 ↔ v = 0xFF := by
  have hneg : -(1 : Byte) = 0xFF := by decide
  rw [add_eq_zero_iff_eq_neg, hneg]

/-- The first form of HalfCarry of an increment, on the bytes themselves (42_incdec8.md R100). -/
theorem incHalfCarry_iff_lt (v : Byte) : incHalfCarry v = true ↔ (v + 1) &&& 0x0F < v &&& 0x0F := by
  rw [incHalfCarry, decide_eq_true_iff, incResult_eq]
  exact BitVec.lt_def.symm

/-- HalfCarry of a decrement, on the bytes themselves (42_incdec8.md R101). -/
theorem decHalfCarry_iff_gt (v : Byte) : decHalfCarry v = true ↔ (v - 1) &&& 0x0F > v &&& 0x0F := by
  rw [decHalfCarry, decide_eq_true_iff, decResult_eq]
  exact BitVec.lt_def.symm

/-- One more than a low nibble passes 0x0F only at 0x0F, the largest (42_incdec8.md R100). -/
theorem lowNibble_add_one_gt_iff (v : Byte) : (v &&& 0x0F).toNat + 1 > 0x0F ↔ v &&& 0x0F = 0x0F := by
  have hle : (v &&& 0x0F).toNat ≤ (0x0F#8).toNat := by
    rw [BitVec.toNat_and]
    exact Nat.and_le_right
  rw [← BitVec.toNat_inj]
  exact ⟨fun h => le_antisymm hle (Nat.lt_succ_iff.mp h), fun h => Nat.lt_succ_iff.mpr h.ge⟩

/-- A coded register is not F, so its write keeps every flag (10_state.md R11, R16). -/
@[simp] theorem State.setX_getFlag (s : State) (r : OpReg) (v : Byte) (fl : Flag) :
    (s.setX r v).getFlag fl = s.getFlag fl := by
  rw [State.getFlag, State.setX_f, State.getFlag]

end Sys2Proof.Machine

namespace Sys2Proof.Proofs

open Sys2Proof Sys2Proof.Machine

/-! The obligations. -/

/-- Settles O23: the next state of the family; its flags are those of `incFlags`, each condition one on the operand. -/
theorem incrementRegister : Obligations.IncrementRegister := by
  intro r s
  have hop := Instr.opcode_of_encode (encode_inc r)
  have hkeep : incF (s.setX r (s.x r + 1)).f (s.x r) &&& 0x1F = s.f &&& 0x1F := by
    rw [incF_and_keeps_carry_unused, State.setX_f]
  have hunused : incF (s.setX r (s.x r + 1)).f (s.x r) &&& 0x0F = s.f &&& 0x0F := by
    simpa using unused_incF (s.setX r (s.x r + 1)).f (s.x r)
  obtain ⟨hregs, -, hcontrol, -⟩ :=
    frame_setX_setF_setPC_report hkeep r (s.x r + 1) (s.pc + 1) (Instr.inc r).opcode
  refine ⟨encode_inc r, costRef_inc r, _, exec_inc_next r s, ?x, ?z, ?zOperand, ?n, ?hf, ?hfNibble, ?hfCarry, ?cf,
    hunused, rfl, congrArg Config.cost hop, hregs, hcontrol, State.setX_mem s r _⟩
  all_goals simp only [State.report_x, State.setPC_x, State.incFlags_x, State.x_setX_same, State.report_getFlag,
    State.setPC_getFlag, State.getFlag_incFlags, decide_eq_true_iff]
  case zOperand => exact add_one_eq_zero_iff (s.x r)
  case hf => exact incHalfCarry_iff_lt (s.x r)
  case hfNibble => exact incHalfCarry_iff (s.x r)
  case hfCarry => exact (incHalfCarry_iff (s.x r)).trans (lowNibble_add_one_gt_iff (s.x r)).symm
  case cf => exact State.setX_getFlag s r _ .cf

/-- Settles O24: the next state of the family; its flags are those of `decFlags`, each condition one on the operand. -/
theorem decrementRegister : Obligations.DecrementRegister := by
  intro r s
  have hop := Instr.opcode_of_encode (encode_dec r)
  have hkeep : decF (s.setX r (s.x r - 1)).f (s.x r) &&& 0x1F = s.f &&& 0x1F := by
    rw [decF_and_keeps_carry_unused, State.setX_f]
  have hunused : decF (s.setX r (s.x r - 1)).f (s.x r) &&& 0x0F = s.f &&& 0x0F := by
    simpa using unused_decF (s.setX r (s.x r - 1)).f (s.x r)
  obtain ⟨hregs, -, hcontrol, -⟩ :=
    frame_setX_setF_setPC_report hkeep r (s.x r - 1) (s.pc + 1) (Instr.dec r).opcode
  refine ⟨encode_dec r, costRef_dec r, _, exec_dec_next r s, ?x, ?z, ?zOperand, ?n, ?hf, ?hfNibble, ?cf,
    hunused, rfl, congrArg Config.cost hop, hregs, hcontrol, State.setX_mem s r _⟩
  all_goals simp only [State.report_x, State.setPC_x, State.decFlags_x, State.x_setX_same, State.report_getFlag,
    State.setPC_getFlag, State.getFlag_decFlags, decide_eq_true_iff]
  case zOperand => exact sub_eq_zero
  case hf => exact decHalfCarry_iff_gt (s.x r)
  case hfNibble => exact decHalfCarry_iff (s.x r)
  case cf => exact State.setX_getFlag s r _ .cf

/-- Settles O25, from O23 and O24: the second instruction undoes the first on the register and writes N and Z, and
neither writes Carry. -/
theorem incrementDecrementRoundTrip : Obligations.IncrementDecrementRoundTrip := by
  intro r s
  constructor
  · obtain ⟨-, -, t, hinc, hx, -, -, -, -, -, -, hcf, -⟩ := incrementRegister r s
    obtain ⟨-, -, u, hdec, hx', hz, -, hn, -, -, hcf', -⟩ := decrementRegister r t
    have hback : u.x r = s.x r := by rw [hx', hx, add_sub_cancel_right]
    exact ⟨t, u, hinc, hdec, hback, hn, hback ▸ hz, hcf'.trans hcf⟩
  · obtain ⟨-, -, t, hdec, hx, -, -, -, -, -, hcf, -⟩ := decrementRegister r s
    obtain ⟨-, -, u, hinc, hx', hz, -, hn, -, -, -, hcf', -⟩ := incrementRegister r t
    have hback : u.x r = s.x r := by rw [hx', hx, sub_add_cancel]
    exact ⟨t, u, hdec, hinc, hback, hn, hback ▸ hz, hcf'.trans hcf⟩

end Sys2Proof.Proofs

/-! 16-bit addition (43_add16.md): the carries of R105 as conditions on numbers, and the carries of a doubling as bits
of the operand. -/

namespace Sys2Proof.Machine

/-- HalfCarry of an add: the operands' low twelve bits, as numbers, pass 0x0FFF (43_add16.md R105). -/
theorem addHalfCarry_iff (a b : Word) : addHalfCarry a b = true ↔ a.toNat % 4096 + b.toNat % 4096 > 0x0FFF := by
  have hlow (w : Word) : (w &&& 0x0FFF#16).toNat = w.toNat % 4096 :=
    (BitVec.toNat_and w _).trans (Nat.and_two_pow_sub_one_eq_mod w.toNat 12)
  rw [addHalfCarry, decide_eq_true_iff, hlow, hlow]

/-- Carry of an add: the sum, as a number, passes 0xFFFF (43_add16.md R105). -/
theorem addCarry_iff (a b : Word) : addCarry a b = true ↔ a.toNat + b.toNat > 0xFFFF := decide_eq_true_iff

/-- A doubling carries out of bit `k` when that bit is set: below it, the doubled bits make less than `2 ^ (k + 1)`
(43_add16.md R106). -/
theorem double_mod_gt_iff_testBit (n k : Nat) :
    n % 2 ^ (k + 1) + n % 2 ^ (k + 1) > 2 ^ (k + 1) - 1 ↔ n.testBit k = true := by
  have hpow : 2 ^ (k + 1) = 2 * 2 ^ k := Nat.pow_succ'
  have hbelow : n % 2 ^ k < 2 ^ k := Nat.mod_lt n (Nat.two_pow_pos k)
  rw [Nat.testBit_eq_decide_div_mod_eq, decide_eq_true_iff, Nat.mod_pow_succ, hpow]
  rcases Nat.mod_two_eq_zero_or_one (n / 2 ^ k) with hbit | hbit <;> rw [hbit] <;> omega

/-- The pair HL is not AF, so its write keeps every flag (10_state.md R13, R16). -/
@[simp] theorem State.setPair_hl_getFlag (s : State) (w : Word) (fl : Flag) :
    (s.setPair .hl w).getFlag fl = s.getFlag fl := rfl

/-- The flags of an add are bits of F, which is no half of HL (10_state.md R13, R16). -/
@[simp] theorem State.addFlags_getPair_hl (s : State) (a b : Word) : (s.addFlags a b).getPair .hl = s.getPair .hl := rfl

end Sys2Proof.Machine

namespace Sys2Proof.Proofs

open Sys2Proof Sys2Proof.Machine

/-! The obligations. -/

/-- Settles O26: the next state of the family; its flags are those of `addFlags`, and the rest is the frame of O38. -/
theorem addPairToHL : Obligations.AddPairToHL := by
  intro p s
  have hop := Instr.opcode_of_encode (encode_addHL p)
  have hunused := unused_addF s.f (s.getPair .hl) (s.getPair (addPair p))
  obtain ⟨hregs, -, hcontrol, -⟩ := frameOfAdd16 p s _ (exec_addHL_next p s)
  refine ⟨encode_addHL p, _, exec_addHL_next p s, ?sum, ?n, ?hf, ?cf, ?z, hunused, rfl, congrArg Config.cost hop,
    hregs, hcontrol, rfl⟩
  all_goals simp only [State.report_getPair, State.setPC_getPair, State.addFlags_getPair_hl, State.getPair_setPair,
    State.report_getFlag, State.setPC_getFlag, State.getFlag_addFlags, State.setPair_hl_getFlag]
  case sum => exact BitVec.toNat_add _ _
  case hf => exact addHalfCarry_iff _ _
  case cf => exact addCarry_iff _ _

/-- Settles O27, from O26 with HL as both operands: the sum is twice HL, and a carry out of a bit is that bit. -/
theorem doubleHL : Obligations.DoubleHL := by
  refine ⟨rfl, fun s => ?_⟩
  obtain ⟨-, t, hexec, hsum, hn, hhf, hcf, -⟩ := addPairToHL .hl s
  have htwice : (t.getPair .hl).toNat = 2 * (s.getPair .hl).toNat % 65536 := by rw [Nat.two_mul]; exact hsum
  refine ⟨t, hexec, ?shift, htwice, hn, ?hf, ?cf⟩
  case shift =>
    apply BitVec.eq_of_toNat_eq
    rw [htwice, BitVec.toNat_shiftLeft, Nat.shiftLeft_eq, Nat.mul_comm]
  case hf => exact Bool.eq_iff_iff.mpr (hhf.trans (double_mod_gt_iff_testBit _ 11))
  case cf =>
    have hbit15 := double_mod_gt_iff_testBit (s.getPair .hl).toNat 15
    rw [Nat.mod_eq_of_lt (s.getPair .hl).isLt] at hbit15
    exact Bool.eq_iff_iff.mpr (hcf.trans hbit15)

end Sys2Proof.Proofs

/-! The jumps (44_jumps.md): the relative target as an integer, and what is fetched at either opcode. -/

namespace Sys2Proof.Machine

/-- The target of `JR e` is an integer sum reduced to a word, with the displacement in two's complement (44_jumps.md
R111). -/
theorem relativeTarget_eq_ofInt (pc : Word) (e : Byte) :
    relativeTarget pc e = BitVec.ofInt 16 (pc.toNat + 2 + e.toInt) := by
  rw [BitVec.ofInt_add, BitVec.ofInt_add, BitVec.ofInt_natCast, BitVec.ofNat_toNat, BitVec.setWidth_eq]
  rfl

/-- As a number, the target of `JR e` is that integer sum modulo 65536 (44_jumps.md R111). -/
theorem toNat_relativeTarget (pc : Word) (e : Byte) :
    ((relativeTarget pc e).toNat : Int) = (pc.toNat + 2 + e.toInt) % 65536 := by
  rw [relativeTarget_eq_ofInt, BitVec.toNat_ofInt]
  exact Int.toNat_of_nonneg (Int.emod_nonneg _ (by decide))

/-- `JP nn` reports 12 for every choice of costs (44_jumps.md R110, 70_reset_and_hazards.md R160). -/
theorem exec_jp_reports_12 (nn : Word) (s : State) : exec (.jp nn) s = .next { s with pc := nn, lcc := 12 } := by
  rw [exec_jp, redirect_eq, cost_jp]

/-- At byte 0xC3, `JP nn` is fetched with the two bytes after `pc`, low byte first (44_jumps.md R110). -/
theorem instrAt_jp {s : State} {addr : Word} (h : s.read addr = 0xC3) :
    instrAt s addr = .jp (wordOf (s.read (addr + 2)) (s.read (addr + 1))) := by
  rw [instrAt_eq_complete, h]
  rfl

/-- At byte 0x18, `JR e` is fetched with the byte after `pc` (44_jumps.md R111). -/
theorem instrAt_jr {s : State} {addr : Word} (h : s.read addr = 0x18) : instrAt s addr = .jr (s.read (addr + 1)) := by
  rw [instrAt_eq_complete, h]
  rfl

end Sys2Proof.Machine

namespace Sys2Proof.Proofs

open Sys2Proof Sys2Proof.Machine

/-! The obligations. -/

/-- Settles O28: the effect of `JP nn`, and what a running core fetches at its opcode. -/
theorem absoluteJump : Obligations.AbsoluteJump := by
  refine ⟨fun _ => rfl, exec_jp_reports_12, fun s hrun hop => ?_⟩
  rw [step_running hrun, instrAt_jp hop, exec_jp_reports_12]

/-- Settles O29: the jump redirects to its relative target, which is the integer sum of R111. -/
theorem relativeJump : Obligations.RelativeJump := by
  intro e s
  refine ⟨rfl, rfl, ⟨_, exec_jr_next e s, toNat_relativeTarget s.pc e, rfl⟩, fun hrun hop => ?_⟩
  rw [step_running hrun, instrAt_jr hop]

end Sys2Proof.Proofs

/-! Push and pop (45_stack.md): the reference costs, the two registers of a pair as the bytes of its word, and the pair
that holds F. -/

namespace Sys2Proof

theorem costRef_push (q : Pair) : Config.costRef (0b11#2 ++ q.code ++ 0b0101#4) = some 16 := by cases q <;> rfl
theorem costRef_pop (q : Pair) : Config.costRef (0b11#2 ++ q.code ++ 0b0001#4) = some 12 := by cases q <;> rfl

end Sys2Proof

namespace Sys2Proof.Machine

theorem State.hiByte_getPair (s : State) (q : Pair) : hiByte (s.getPair q) = s.getReg (pairHi q) := hiByte_wordOf _ _

theorem State.loByte_getPair (s : State) (q : Pair) : loByte (s.getPair q) = s.getReg (pairLo q) := loByte_wordOf _ _

/-- AF is the one pair that holds F (10_state.md R13). -/
theorem f_notMem_of_ne_af {q : Pair} (h : q ≠ .af) : Reg.f ∉ [pairHi q, pairLo q] := by
  cases q with
  | af => exact absurd rfl h
  | bc | de | hl => decide

end Sys2Proof.Machine

namespace Sys2Proof.Proofs

open Sys2Proof Sys2Proof.Machine

/-! The obligations. -/

/-- Settles O31: the next state of the family, whose two bytes pushed are those of the pair's word. -/
theorem pushPair : Obligations.PushPair := by
  intro q s
  refine ⟨encode_push q, costRef_push q, ?_⟩
  rw [exec_push_next, Instr.opcode_of_encode (encode_push q), ← State.hiByte_getPair s q, ← State.loByte_getPair s q]
  rfl

/-- Settles O32: the pair becomes the word on top of the stack, so its registers are the bytes of that word; the rest is
the frame of O41. -/
theorem popPair : Obligations.PopPair := by
  intro q s
  have hop := Instr.opcode_of_encode (encode_pop q)
  obtain ⟨t, hexec, hword, hpc, hlcc, hmem⟩ : ∃ t, exec (Instr.pop q) s = .next t ∧ t.getPair q = s.topWord ∧
      t.pc = s.pc + 1 ∧ t.lcc = Config.cost (Instr.pop q).opcode ∧ t.mem = s.mem :=
    ⟨_, exec_pop_next q s, by simp, rfl, rfl, by simp⟩
  obtain ⟨hregs, hsp, hstatus, hfop, hfpc, -⟩ := frameOfPop q s t hexec
  have hhi : t.getReg (pairHi q) = s.read (s.sp + 1) := by
    rw [← State.hiByte_getPair, hword, State.topWord, hiByte_wordOf]
  have hlo : t.getReg (pairLo q) = s.read s.sp := by
    rw [← State.loByte_getPair, hword, State.topWord, loByte_wordOf]
  refine ⟨encode_pop q, costRef_pop q, t, hexec, hword, hhi, hlo, ?flags, ?keepsF, hsp, hpc, hop ▸ hlcc, hregs,
    hstatus, hfop, hfpc, hmem⟩
  case flags =>
    rintro rfl
    have hf : t.f = s.read s.sp := hlo
    rw [← hf]
    exact ⟨rfl, rfl, rfl, rfl, rfl⟩
  case keepsF => exact fun hne => hregs .f (f_notMem_of_ne_af hne)

/-- Settles O33, from O32 and O40: the popped word is the top of the stack that the push leaves. -/
theorem pushPopRoundTrip : Obligations.PushPopRoundTrip := by
  intro q q' s hwf
  have hpush := exec_push_next q s
  obtain ⟨-, hsp, -, -, -, hhi, hlo, -⟩ := frameOfPushAndCall _ _ s _ hwf (.inl ⟨q, rfl, rfl⟩) hpush
  obtain ⟨-, -, u, hpop, hword, -, -, -, -, husp, -, -, -, -, -, -, hmem⟩ := popPair q' _
  have hread (addr : Word) := congrArg (Memory.read · addr.toNat) hmem
  refine ⟨_, u, hpush, hpop, hword.trans (State.topWord_pushWord hwf), ?_, hmem, ?_, ?_⟩
  · rw [husp, hsp, sub_add_cancel]
  · exact (hread _).trans (hhi.trans (State.hiByte_getPair s q))
  · exact (hread _).trans (hlo.trans (State.loByte_getPair s q))

end Sys2Proof.Proofs

/-! The fixed-vector call (46_restart.md): the reference cost, and the shift of the vector index as a product. -/

namespace Sys2Proof

theorem costRef_rst (ttt : Fin 8) :
    Config.costRef (0b11#2 ++ (BitVec.ofFin ttt : BitVec 3) ++ 0b111#3) = some 32 := by
  match ttt with
  | 0 | 1 | 2 | 3 | 4 | 5 | 6 | 7 => rfl

end Sys2Proof

namespace Sys2Proof.Machine

/-- The target of `RST` is 8 times the vector index (46_restart.md R120): no bit is lost in the shift. -/
theorem vectorAddress_eq_ofNat (ttt : BitVec 3) : vectorAddress ttt = BitVec.ofNat 16 (8 * ttt.toNat) := by
  apply BitVec.eq_of_toNat_eq
  have hlt : ttt.toNat < 2 ^ 16 := ttt.isLt.trans (by decide)
  rw [vectorAddress, BitVec.toNat_shiftLeft, BitVec.toNat_setWidth, Nat.mod_eq_of_lt hlt, Nat.shiftLeft_eq,
    Nat.mul_comm, BitVec.toNat_ofNat]

end Sys2Proof.Machine

namespace Sys2Proof.Proofs

open Sys2Proof Sys2Proof.Machine

/-! The obligation. -/

/-- Settles O34: the next state of the family, which pushes `pc + 1` as by `PUSH` and then redirects to the vector. -/
theorem fixedVectorCall : Obligations.FixedVectorCall := by
  intro ttt s
  refine ⟨encode_rst ttt, costRef_rst ttt, ?_⟩
  rw [exec_rst_next, Instr.opcode_of_encode (encode_rst ttt), vectorAddress_eq_ofNat]
  rfl

end Sys2Proof.Proofs

/-! The exception and the launch (60_exceptions.md, 70_reset_and_hazards.md): the state that takes the condition written
out, what the host reads of it, and the launch that is refused. -/

namespace Sys2Proof.Machine

/-- Taking the condition writes `status` and the latch, and no other field (60_exceptions.md R131). -/
theorem State.raiseUnimplementedOpcode_eq (s : State) (op : Byte) (addr : Word) :
    s.raiseUnimplementedOpcode op addr = { s with status := .faulted, fop := op, fpc := addr } := rfl

/-- A Faulted core's diagnostic is its latch (60_exceptions.md R143). -/
theorem State.diagnostic_faulted {s : State} (h : s.status = .faulted) : s.diagnostic = some (s.fop, s.fpc) := by
  rw [State.diagnostic, h]

/-- No launch takes an image that memory cannot hold (70_reset_and_hazards.md R151). -/
theorem launch_refused (r : Config.ResetValues) {image : List Byte} (h : image.length > 65536) :
    launch r image = .refused .imageTooLong := by
  rw [launch, if_neg (Nat.not_le_of_gt h)]

/-- A reset request is a launch, whatever the state that serves it (80_host_and_timing.md R171). -/
theorem serve_reset (r : Config.ResetValues) (image : List Byte) (s : State) :
    serve (.reset r image) s = launch r image := rfl

end Sys2Proof.Machine

namespace Sys2Proof.Proofs

open Sys2Proof Sys2Proof.Machine

/-! The obligations. -/

/-- Settles O11: the step takes the condition with the byte at `pc` and its address, which become the latch that the
diagnostic reads. -/
theorem unimplementedStepLatches : Obligations.UnimplementedStepLatches := by
  intro s hrun hop
  refine ⟨_, step_of_not_implemented hrun hop, State.raiseUnimplementedOpcode_eq s _ _, ?_⟩
  rw [State.diagnostic_faulted (State.raiseUnimplementedOpcode_status s _ _), State.raiseUnimplementedOpcode_fop,
    State.raiseUnimplementedOpcode_fpc]

/-- Settles O9: a Faulted core has no step; a reset is a launch, and a launch that completes starts running. -/
theorem faultedCoreHasNoStep : Obligations.FaultedCoreHasNoStep := by
  intro s hfaulted
  refine ⟨step_faulted hfaulted, fun r image hlen => ?_⟩
  rw [serve_reset]
  exact ⟨_, launch_eq r hlen, rfl⟩

/-- Settles O12: the instruction takes the condition with the byte it carries and the current `pc`. -/
theorem unimplementedOpcodeIsTaken : Obligations.UnimplementedOpcodeIsTaken := by
  intro op s
  rw [exec_unimplemented, State.raiseUnimplementedOpcode_eq]

/-- Settles O55: a reset request is a launch, which refuses the image. -/
theorem longImageIsRefused : Obligations.LongImageIsRefused := by
  intro s r image hlen
  rw [serve_reset, launch_refused r hlen]

end Sys2Proof.Proofs
